-- ==== Sys2Proof/Word.lean ====
section
/-! DEFINITION. The two widths of value the block works on (spec/00_scope.md section 7: `u8` and `u16`, unsigned). -/

namespace Sys2Proof

/-- A byte: a value 0..255 (R31), the cell of the two buffers and the operand of a command. -/
abbrev Byte := BitVec 8

/-- A 16-bit number: a command word (R50), the data of a response (R51), the CRC and an entry of `T` (R11, R75). -/
abbrev Word := BitVec 16

end Sys2Proof
end

