-- ==== Sys2Proof/Syntax.lean ====
section
/-! DEFINITION. The 25 commands of the block (R52), one constructor per row of spec/opcode_table.json, in its order. -/

namespace Sys2Proof

/-- A command with its operand. A command whose row of R52 says "none" has no argument: its `imm` is zero (R54). -/
inductive Instr where
  /-- `SUMCLR` (R67) -/
  | sumclr
  /-- `SUMADD imm` (R68), a data byte -/
  | sumadd (imm : Byte)
  /-- `SUMRD` (R69) -/
  | sumrd
  /-- `BSUM` (R70) -/
  | bsum
  /-- `CRCCLR` (R80) -/
  | crcclr
  /-- `CRCUPD imm` (R81), a data byte -/
  | crcupd (imm : Byte)
  /-- `CRCRD` (R82) -/
  | crcrd
  /-- `BCRC` (R83) -/
  | bcrc
  /-- `PCLR` (R90) -/
  | pclr
  /-- `PWR imm` (R91), a data byte -/
  | pwr (imm : Byte)
  /-- `PPAD` (R92) -/
  | ppad
  /-- `PRD imm` (R93), an index into `PBUF` -/
  | prd (imm : Byte)
  /-- `PLENRD` (R94) -/
  | plenrd
  /-- `PTRIM` (R96) -/
  | ptrim
  /-- `SETMODE imm` (R100), 0 checksum, 1 CRC -/
  | setmode (imm : Byte)
  /-- `PACK imm` (R103), a sequence number -/
  | pack (imm : Byte)
  /-- `UNPACK` (R108) -/
  | unpack
  /-- `FCLR` (R104) -/
  | fclr
  /-- `FWR imm` (R105), a data byte -/
  | fwr (imm : Byte)
  /-- `FRD imm` (R106), an index into `FBUF` -/
  | frd (imm : Byte)
  /-- `FLENRD` (R107) -/
  | flenrd
  /-- `SEQRD` (R109) -/
  | seqrd
  /-- `STATRD` (R110) -/
  | statrd
  /-- `MODERD` (R101) -/
  | moderd
  /-- `ERRRD` (R120) -/
  | errrd
  deriving DecidableEq, Repr

end Sys2Proof
end

