-- ==== Sys2Proof/WellFormed.lean ====
section
/-! DEFINITION. Which commands have an encoding (R54): every operand value is legal but `SETMODE`'s, which is 0 or 1. -/

namespace Sys2Proof

/-- The command is one of the 1811 legal command words (R54, R56). -/
def Instr.wellFormed : Instr → Bool
  | .setmode imm => decide (imm.toNat ≤ 1)
  | .sumclr | .sumadd _ | .sumrd | .bsum | .crcclr | .crcupd _ | .crcrd | .bcrc
  | .pclr | .pwr _ | .ppad | .prd _ | .plenrd | .ptrim
  | .pack _ | .unpack | .fclr | .fwr _ | .frd _ | .flenrd | .seqrd | .statrd | .moderd | .errrd => true

end Sys2Proof
end

