-- ==== Sys2Proof/Decode.lean ====
section
/-! DEFINITION. Decoding a command word, total on all 65536 words (R50, R52, R53, R54, R56), the encoder beside it (R57:
`op << 8 | imm`), and the opcode map of R52 as a list of rows. -/

namespace Sys2Proof

/-- Why a word is no command. Each of these raises `IllegalCommand` (R53, R54). -/
inductive DecodeReject where
  /-- `op` is not one of the 25 values of R52 (R53) -/
  | unassignedOpcode
  /-- a command without operand whose `imm` is not zero (R54) -/
  | operandNotZero
  /-- `SETMODE` with `imm` above 1 (R54) -/
  | modeAboveOne
  deriving DecidableEq, Repr

/-- What decoding answers: a command, or a rejection by name. -/
inductive Decoded where
  /-- the word is this command -/
  | command (i : Instr)
  /-- the word is illegal -/
  | reject (why : DecodeReject)
  deriving DecidableEq, Repr

/-- `op = w[15:8]` (R50). -/
def opField (w : Word) : Byte := w.extractLsb' 8 8

/-- `imm = w[7:0]` (R50). -/
def immField (w : Word) : Byte := w.extractLsb' 0 8

/-- A command without operand: its `imm` must be zero (R54). -/
def decodeNoOperand (i : Instr) (imm : Byte) : Decoded :=
  if imm = 0 then .command i else .reject .operandNotZero

/-- `SETMODE`: its `imm` must be 0 or 1 (R54). -/
def decodeSetmode (imm : Byte) : Decoded :=
  if imm.toNat ≤ 1 then .command (.setmode imm) else .reject .modeAboveOne

/-- The decoding procedure of R56: `op` alone selects the command, then `imm` is checked. -/
def decode (w : Word) : Decoded :=
  let imm := immField w
  match (opField w).toNat with
  | 0x10 => decodeNoOperand .sumclr imm
  | 0x11 => .command (.sumadd imm)
  | 0x12 => decodeNoOperand .sumrd imm
  | 0x13 => decodeNoOperand .bsum imm
  | 0x20 => decodeNoOperand .crcclr imm
  | 0x21 => .command (.crcupd imm)
  | 0x22 => decodeNoOperand .crcrd imm
  | 0x23 => decodeNoOperand .bcrc imm
  | 0x30 => decodeNoOperand .pclr imm
  | 0x31 => .command (.pwr imm)
  | 0x32 => decodeNoOperand .ppad imm
  | 0x33 => .command (.prd imm)
  | 0x34 => decodeNoOperand .plenrd imm
  | 0x35 => decodeNoOperand .ptrim imm
  | 0x40 => decodeSetmode imm
  | 0x41 => .command (.pack imm)
  | 0x42 => decodeNoOperand .unpack imm
  | 0x43 => decodeNoOperand .fclr imm
  | 0x44 => .command (.fwr imm)
  | 0x45 => .command (.frd imm)
  | 0x46 => decodeNoOperand .flenrd imm
  | 0x47 => decodeNoOperand .seqrd imm
  | 0x48 => decodeNoOperand .statrd imm
  | 0x49 => decodeNoOperand .moderd imm
  | 0x50 => decodeNoOperand .errrd imm
  | _ => .reject .unassignedOpcode

/-- The opcode of a command (R52). -/
def Instr.opcode : Instr → Byte
  | .sumclr => 0x10
  | .sumadd _ => 0x11
  | .sumrd => 0x12
  | .bsum => 0x13
  | .crcclr => 0x20
  | .crcupd _ => 0x21
  | .crcrd => 0x22
  | .bcrc => 0x23
  | .pclr => 0x30
  | .pwr _ => 0x31
  | .ppad => 0x32
  | .prd _ => 0x33
  | .plenrd => 0x34
  | .ptrim => 0x35
  | .setmode _ => 0x40
  | .pack _ => 0x41
  | .unpack => 0x42
  | .fclr => 0x43
  | .fwr _ => 0x44
  | .frd _ => 0x45
  | .flenrd => 0x46
  | .seqrd => 0x47
  | .statrd => 0x48
  | .moderd => 0x49
  | .errrd => 0x50

/-- The operand field of a command: zero where it has none (R54, R57). -/
def Instr.operand : Instr → Byte
  | .sumadd imm | .crcupd imm | .pwr imm | .prd imm | .setmode imm | .pack imm | .fwr imm | .frd imm => imm
  | .sumclr | .sumrd | .bsum | .crcclr | .crcrd | .bcrc | .pclr | .ppad | .plenrd
  | .ptrim | .unpack | .fclr | .flenrd | .seqrd | .statrd | .moderd | .errrd => 0

/-- The word of a command: `op << 8 | imm` (R50, R57). -/
def encode (i : Instr) : Word := i.opcode ++ i.operand

/-- One row of the opcode map of R52: `w` is the row's command when `w & mask = match`. -/
structure OpcodeRow where
  /-- the mnemonic -/
  mnemonic : String
  /-- the column `match` -/
  pattern : Word
  /-- the column `mask` -/
  mask : Word
  deriving DecidableEq, Repr

/-- The word `w` is of the row (R52). -/
def OpcodeRow.covers (r : OpcodeRow) (w : Word) : Bool := decide (w &&& r.mask = r.pattern)

/-- The row of R52 that a command belongs to. -/
def Instr.row : Instr → OpcodeRow
  | .sumclr => ⟨"SUMCLR", 0x1000, 0xFFFF⟩
  | .sumadd _ => ⟨"SUMADD", 0x1100, 0xFF00⟩
  | .sumrd => ⟨"SUMRD", 0x1200, 0xFFFF⟩
  | .bsum => ⟨"BSUM", 0x1300, 0xFFFF⟩
  | .crcclr => ⟨"CRCCLR", 0x2000, 0xFFFF⟩
  | .crcupd _ => ⟨"CRCUPD", 0x2100, 0xFF00⟩
  | .crcrd => ⟨"CRCRD", 0x2200, 0xFFFF⟩
  | .bcrc => ⟨"BCRC", 0x2300, 0xFFFF⟩
  | .pclr => ⟨"PCLR", 0x3000, 0xFFFF⟩
  | .pwr _ => ⟨"PWR", 0x3100, 0xFF00⟩
  | .ppad => ⟨"PPAD", 0x3200, 0xFFFF⟩
  | .prd _ => ⟨"PRD", 0x3300, 0xFF00⟩
  | .plenrd => ⟨"PLENRD", 0x3400, 0xFFFF⟩
  | .ptrim => ⟨"PTRIM", 0x3500, 0xFFFF⟩
  | .setmode _ => ⟨"SETMODE", 0x4000, 0xFFFE⟩
  | .pack _ => ⟨"PACK", 0x4100, 0xFF00⟩
  | .unpack => ⟨"UNPACK", 0x4200, 0xFFFF⟩
  | .fclr => ⟨"FCLR", 0x4300, 0xFFFF⟩
  | .fwr _ => ⟨"FWR", 0x4400, 0xFF00⟩
  | .frd _ => ⟨"FRD", 0x4500, 0xFF00⟩
  | .flenrd => ⟨"FLENRD", 0x4600, 0xFFFF⟩
  | .seqrd => ⟨"SEQRD", 0x4700, 0xFFFF⟩
  | .statrd => ⟨"STATRD", 0x4800, 0xFFFF⟩
  | .moderd => ⟨"MODERD", 0x4900, 0xFFFF⟩
  | .errrd => ⟨"ERRRD", 0x5000, 0xFFFF⟩

/-- One command of each row, in the order of R52 (an operand, where there is one, is zero). -/
def Instr.samples : List Instr :=
  [.sumclr, .sumadd 0, .sumrd, .bsum, .crcclr, .crcupd 0, .crcrd, .bcrc]
    ++ [.pclr, .pwr 0, .ppad, .prd 0, .plenrd, .ptrim]
    ++ [.setmode 0, .pack 0, .unpack, .fclr, .fwr 0, .frd 0, .flenrd, .seqrd, .statrd, .moderd, .errrd]

/-- The opcode map of R52: 25 rows. -/
def opcodeMap : List OpcodeRow := Instr.samples.map Instr.row

/-- The word the host's numbering gives: bit 0 is the least significant bit; the word has 16 bits, and the bits from
`nbits` on are zero. -/
def tableWord (nbits w : Nat) : Word := BitVec.ofNat 16 (w % 2 ^ nbits)

/-- The command that the decoder reads from the table's word `w` of `nbits` bits. A command is one 16-bit word that is
never laid out in bytes (R33, R50). -/
def decodeTableWord (nbits w : Nat) : Option Instr :=
  match decode (tableWord nbits w) with
  | .command i => some i
  | .reject _ => none

end Sys2Proof
end

