-- ==== Sys2Proof/Config.lean ====
section
/-! DEFINITION. The block's fixed constants (R5: none is configurable) and the one free value of the model. -/

namespace Sys2Proof

/-- The two writable address spaces of R30. (`T`, the third, is the constant of Machine/CrcTable.lean.) -/
inductive Buffer where
  /-- `PBUF`, 128 bytes (R13) -/
  | payload
  /-- `FBUF`, 133 bytes (R15) -/
  | frame
  deriving DecidableEq, Repr

/-- `PAYLOAD_LEN` (R5): bytes in a payload, the size of `PBUF`. -/
abbrev Config.payloadLen : Nat := 128

/-- `FRAME_LEN_SUM` (R5, R49): bytes of a frame in checksum mode. -/
abbrev Config.frameLenSum : Nat := 132

/-- `FRAME_LEN_CRC` (R5, R49): bytes of a frame in CRC mode, the size of `FBUF` (R15). -/
abbrev Config.frameLenCrc : Nat := 133

/-- `FILLER` (R5): the byte that pads a short final payload. -/
abbrev Config.filler : Byte := 0x1A

/-- `SOH` (R45): start of a block. -/
abbrev Config.soh : Byte := 0x01

/-- `EOT` (R45): end of transmission, used by the host only. -/
abbrev Config.eot : Byte := 0x04

/-- `ACK` (R45): acknowledge, used by the host only. -/
abbrev Config.ack : Byte := 0x06

/-- `NAK` (R45): negative acknowledge, used by the host only. -/
abbrev Config.nak : Byte := 0x15

/-- `CRCREQ` (R45): the letter 'C', used by the host only. -/
abbrev Config.crcReq : Byte := 0x43

/-- `CRC_POLY` (R5): x^16 + x^12 + x^5 + 1 with the x^16 term implicit. -/
abbrev Config.crcPoly : Word := 0x1021

/-- `CRC_INIT` (R5, R77): the initial value of the running CRC. -/
abbrev Config.crcInit : Word := 0x0000

/-- The value at which `PLEN` and `FLEN` saturate (R14, R16). -/
abbrev Config.countMax : Nat := 255

/-- FREE VALUE (log 1). What a byte of a buffer holds that no command has written since the reset numbered by the
first argument: "unspecified, not observable" (R25, R27), to be treated as any value (V1). It has no body, so a
statement about it holds for every value. -/
opaque Config.unwritten : Nat → Buffer → Nat → Byte

end Sys2Proof
end

