-- ==== Sys2Proof/Machine/State.lean ====
section
/-! DEFINITION. The state of the block (spec/10_state.md), its interface, and the state after reset (R25). Plain data. -/

namespace Sys2Proof.Machine

/-- The validation mode, a tag (R12). -/
inductive Mode where
  /-- `MODE = 0` -/
  | checksum
  /-- `MODE = 1` -/
  | crc
  deriving DecidableEq, Repr

/-- The four faults of the block (R170). They are responses of a command, after which the block goes on (R175), so none
of them ends a run of the model. -/
inductive BlockFault where
  /-- code 1: a whole-payload computation while `PLEN != 128` -/
  | invalidBlockSize
  /-- code 2: `UNPACK` while `FLEN != frame_len(MODE)` -/
  | invalidFrameSize
  /-- code 3: an indexed read at or above the number of valid bytes -/
  | indexOutOfRange
  /-- code 4: an illegal command word -/
  | illegalCommand
  deriving DecidableEq, Repr

/-- The one response of a command (R51). -/
inductive Response where
  /-- `ok(d)` -/
  | ok (d : Word)
  /-- `fault(code)`, the code being that of R170 -/
  | fault (f : BlockFault)
  deriving DecidableEq, Repr

/-- What the host may do to the block (R161): present a command word, or apply the reset event (R195). -/
inductive HostInput where
  /-- present a command word, any of the 65536 -/
  | command (w : Word)
  /-- apply reset between two commands -/
  | reset
  deriving DecidableEq, Repr

/-- The bytes a buffer holds that have been written since reset, as (index, byte) cells with strictly rising indices. An
unlisted index has not been written (log 1). The operations stand in Machine/Ops.lean. -/
abbrev Memory := List Host.Cell

/-- The state: the ten items of spec/10_state.md section 1, then three fields of the model's own. -/
structure State where
  /-- `SUM`, the running and final checksum (R10) -/
  sum : BitVec 8
  /-- `CRC`, the running and final CRC (R11) -/
  crc : BitVec 16
  /-- `MODE` (R12) -/
  mode : Mode
  /-- `PBUF[0..127]` (R13) -/
  pbuf : Memory
  /-- `PLEN`, bytes offered to `PBUF` since it was last cleared, saturating at 255 (R14) -/
  plen : BitVec 8
  /-- `FBUF[0..132]` (R15) -/
  fbuf : Memory
  /-- `FLEN`, bytes offered to `FBUF` since it was last cleared, saturating at 255, or the length `PACK` built (R16) -/
  flen : BitVec 8
  /-- `RSEQ`, the sequence byte of the frame last unpacked (R17) -/
  rseq : BitVec 8
  /-- `STAT`: bit 0 `CHECK_OK`, bit 1 `PAIR_OK`, bit 2 `SOH_OK` (R18) -/
  stat : BitVec 3
  /-- `ERR`, sticky: bit `k-1` is set by the fault with code `k` (R19) -/
  err : BitVec 4
  /-- DESIGN CHOICE (log 1): the number of resets applied; only the free value of unwritten bytes reads it -/
  epoch : Nat
  /-- DESIGN CHOICE (log 3): the host's next inputs, oldest first -/
  pending : List HostInput
  /-- DESIGN CHOICE (log 2): the response of the last command, none if there has been none since reset -/
  response : Option Response
  deriving DecidableEq, Repr

/-- Reasons for which the machine could stop with a fault. There are none: "Nothing in the block is stuck"
(spec/93_implementation_defined.md), every command word gets a response in every state (R56, R161, R172), so nobody
raises one and no constructor exists. That is neither safe nor unsafe: nothing is cut off. -/
inductive Fault where
  deriving DecidableEq, Repr

/-- Reasons for which an instruction could be refused. -/
inductive Refusal where
  /-- the instruction has no meaning in the model yet (safe: nothing is said of it). Raised by no arm of `exec`: every
  command of R52 has its meaning. -/
  | notModelled (mnemonic : String)
  deriving DecidableEq, Repr

/-- What a step or a command answers. -/
abbrev Result := Host.Outcome State Fault Refusal

/-- The block right after the reset event (R25, R195): no byte of a buffer is listed, no input is pending, no response
has been given. -/
def State.reset : State where
  sum := 0x00
  crc := 0x0000
  mode := .checksum
  pbuf := []
  plen := 0
  fbuf := []
  flen := 0
  rseq := 0x00
  stat := 0b000
  err := 0b0000
  epoch := 0
  pending := []
  response := none

end Sys2Proof.Machine
end

