-- ==== Sys2Proof/Machine/Operands.lean ====
section
/-! DEFINITION. Operand forms: widening to the 16-bit response, the two bytes of a 16-bit number, the mode's coding, and
the two addressing modes of the buffers, append at the write pointer and absolute index (spec/42_payload_buffer.md). -/

namespace Sys2Proof.Machine

/-- `zext_16` of a byte (R50, R51): nothing in the block is signed. -/
def zext16 (b : Byte) : Word := b.zeroExtend 16

/-- `v[15:8]`, the byte that goes on the wire first (R33). -/
def highByte (v : Word) : Byte := v.extractLsb' 8 8

/-- `v[7:0]`, the byte that goes on the wire second (R33). -/
def lowByte (v : Word) : Byte := v.extractLsb' 0 8

/-- The numeric coding of `MODE` (R12). -/
def Mode.code : Mode → BitVec 1
  | .checksum => 0
  | .crc => 1

/-- The mode that bit 0 of an operand names (R100: `MODE <- imm[0]`). -/
def Mode.ofOperand (imm : Byte) : Mode := if imm.getLsbD 0 then .crc else .checksum

/-- `zext_16(MODE)` (R101). -/
def Mode.data (m : Mode) : Word := m.code.zeroExtend 16

/-- `frame_len(MODE)` (R49): the framer takes the length from the mode, never from the frame. -/
def frameLen : Mode → Nat
  | .checksum => Config.frameLenSum
  | .crc => Config.frameLenCrc

/-- Cells of a buffer (R30). -/
def bufferSize : Buffer → Nat
  | .payload => Config.payloadLen
  | .frame => Config.frameLenCrc

/-- `min(PLEN, 128)` or `min(FLEN, 133)`: how many bytes of the buffer are valid (R27, R38). -/
def validCount (b : Buffer) (count : Byte) : Nat := min count.toNat (bufferSize b)

/-- `min(count + 1, 255)`: the fill counts saturate and never wrap (R14, R16). -/
def bumpCount (count : Byte) : Byte := BitVec.ofNat 8 (min (count.toNat + 1) Config.countMax)

end Sys2Proof.Machine
end

