-- ==== Sys2Proof/Machine/Flags.lean ====
section
/-! DEFINITION. The two status registers: `STAT`, written by `UNPACK` only (R18), and `ERR`, written by faults only (R19).
There are no other flags: the carry out of the checksum addition and the bits shifted out of the CRC are dropped (R23). -/

namespace Sys2Proof.Machine

/-- The code of a fault (R170). -/
def BlockFault.code : BlockFault → Nat
  | .invalidBlockSize => 1
  | .invalidFrameSize => 2
  | .indexOutOfRange => 3
  | .illegalCommand => 4

/-- `1 << (k - 1)` for the fault with code `k` (R172): its bit of `ERR` (R19). -/
def BlockFault.bit (f : BlockFault) : BitVec 4 := 1#4 <<< (f.code - 1)

/-- `soh_ok ++ pair_ok ++ check_ok`: bits 2, 1 and 0 of `STAT` (R18, R108). -/
def statBits (sohOk pairOk checkOk : Bool) : BitVec 3 :=
  BitVec.ofBool sohOk ++ BitVec.ofBool pairOk ++ BitVec.ofBool checkOk

/-- `STAT.CHECK_OK` (R18). -/
def statCheckOk (stat : BitVec 3) : Bool := stat.getLsbD 0

/-- `STAT.PAIR_OK` (R18). -/
def statPairOk (stat : BitVec 3) : Bool := stat.getLsbD 1

/-- `STAT.SOH_OK` (R18). -/
def statSohOk (stat : BitVec 3) : Bool := stat.getLsbD 2

/-- The test of a sequence byte and its check byte, `zext_16(seq) + zext_16(chk) = 0x00FF` (R48, R108). -/
def pairOk (seq chk : Byte) : Bool := decide (zext16 seq + zext16 chk = 0x00FF)

end Sys2Proof.Machine
end

