-- ==== Sys2Proof/Machine/Ops.lean ====
section
/-! DEFINITION. The named operations over the buffers, the registers and the interface, and the one operation by which a
command takes a fault (R172). -/

namespace Sys2Proof.Machine

/-! ## A buffer as cells -/

/-- The byte written at an index, if one has been (log 1). -/
def Memory.read? : Memory → Nat → Option Byte
  | [], _ => none
  | (a, v) :: m, i => if a = i then some v else Memory.read? m i

/-- `MemWrite(space:i, 1, v)`: one byte at one index (R35), the cells kept in rising order. -/
def Memory.write : Memory → Nat → Byte → Memory
  | [], i, v => [(i, v)]
  | (a, w) :: m, i, v =>
    if i < a then (i, v) :: (a, w) :: m
    else if i = a then (i, v) :: m
    else (a, w) :: Memory.write m i v

/-- Bytes written at consecutive indices from `i` on. -/
def Memory.writeAll : Memory → Nat → List Byte → Memory
  | m, _, [] => m
  | m, i, v :: vs => Memory.writeAll (m.write i v) (i + 1) vs

/-- The cells rise strictly from `lo` on and stay below `size`. -/
def Memory.wfFrom : Nat → Nat → Memory → Bool
  | _, _, [] => true
  | lo, size, (a, _) :: m => decide (lo ≤ a) && decide (a < size) && Memory.wfFrom (a + 1) size m

/-- The canonical form of a buffer of `size` cells: indices strictly rising and below `size` (R30, R31). -/
def Memory.wf (size : Nat) (m : Memory) : Bool := m.wfFrom 0 size

/-- The buffer as cells. -/
def State.cells (s : State) : Buffer → Memory
  | .payload => s.pbuf
  | .frame => s.fbuf

/-- The fill count of a buffer, `PLEN` or `FLEN`. -/
def State.count (s : State) : Buffer → Byte
  | .payload => s.plen
  | .frame => s.flen

/-- `MemRead(space:i, 1)`: what a cell holds; one that nothing has written since reset holds the free value of log 1,
"unspecified" (R27). -/
def State.byteAt (s : State) (b : Buffer) (i : Nat) : Byte :=
  ((s.cells b).read? i).getD (Config.unwritten s.epoch b i)

/-- The bytes at indices `i`, …, `i + n - 1` of a buffer. -/
def State.bytesFrom (s : State) (b : Buffer) (i : Nat) : Nat → List Byte
  | 0 => []
  | n + 1 => s.byteAt b i :: State.bytesFrom s b (i + 1) n

/-- `PBUF[0..127]`. -/
def State.payload (s : State) : List Byte := s.bytesFrom .payload 0 Config.payloadLen

/-! ## Registers -/

/-- `SUM <- v`. -/
def State.setSum (s : State) (v : Byte) : State := { s with sum := v }

/-- `CRC <- v`. -/
def State.setCrc (s : State) (v : Word) : State := { s with crc := v }

/-- `MODE <- m`. -/
def State.setMode (s : State) (m : Mode) : State := { s with mode := m }

/-- The payload buffer and its fill count, written together. -/
def State.setPayload (s : State) (m : Memory) (count : Byte) : State := { s with pbuf := m, plen := count }

/-- The frame buffer and its fill count, written together. -/
def State.setFrame (s : State) (m : Memory) (count : Byte) : State := { s with fbuf := m, flen := count }

/-- `RSEQ` and `STAT`, the result registers of `UNPACK`. -/
def State.setUnpacked (s : State) (seq : Byte) (stat : BitVec 3) : State := { s with rseq := seq, stat := stat }

/-- The inputs that remain. -/
def State.setPending (s : State) (rest : List HostInput) : State := { s with pending := rest }

/-! ## Responses and faults -/

/-- The command has responded `ok(d)` (R51). -/
def State.answered (s : State) (d : Word) : State := { s with response := some (.ok d) }

/-- FAULT ENTRY (R172): the fault's bit of `ERR` is set, the response is `fault(k)`, and nothing else changes: no register
saves anything, control goes nowhere. There is no return from a fault (R175): the next command runs normally. -/
def State.faulted (s : State) (f : BlockFault) : State :=
  { s with err := s.err ||| f.bit, response := some (.fault f) }

/-- `respond ok(d)`. -/
def respond (d : Word) (s : State) : Result := .next (s.answered d)

/-- `raise f`. -/
def raise (f : BlockFault) (s : State) : Result := .next (s.faulted f)

/-! ## Whole payloads and indexed reads -/

/-- `if PLEN != 128: raise InvalidBlockSize`, else go on with `PBUF[0..127]` (R70, R83, R96, R103). -/
def withPayload (s : State) (k : List Byte → Result) : Result :=
  if s.plen.toNat = Config.payloadLen then k s.payload else raise .invalidBlockSize s

/-- The absolute-index read of `PRD` and `FRD`: `IndexOutOfRange` at or above the number of valid bytes (R93, R106). -/
def readIndexed (b : Buffer) (imm : Byte) (s : State) : Result :=
  if validCount b (s.count b) ≤ imm.toNat then raise .indexOutOfRange s
  else respond (zext16 (s.byteAt b imm.toNat)) s

/-- The store of `PWR` and `FWR`, append at the write pointer: the byte is dropped where the buffer is full (R91, R105). -/
def appendCell (b : Buffer) (m : Memory) (count v : Byte) : Memory :=
  if count.toNat < bufferSize b then m.write count.toNat v else m

/-! ## The interface -/

/-- The reset event (R195, R25): every register at its reset value, the buffers' contents unspecified afresh (a new epoch
of the free value, log 1), no response. The host's remaining inputs are the host's and stay. -/
def State.resetEvent (s : State) : State :=
  { State.reset with epoch := s.epoch + 1, pending := s.pending }

/-- The host's next input and the state without it. -/
def State.takeInput? (s : State) : Option (HostInput × State) :=
  match s.pending with
  | [] => none
  | x :: rest => some (x, s.setPending rest)

/-- The host presents the word `w` next, before whatever else it has to present. -/
def State.presentFirst (s : State) (w : Word) : State := s.setPending (.command w :: s.pending)

end Sys2Proof.Machine
end

