-- ==== Sys2Proof/Machine/Checksum.lean ====
section
/-! DEFINITION. The checksum accumulator (spec/40_checksum.md): `SUMCLR`, `SUMADD`, `SUMRD`, `BSUM`. -/

namespace Sys2Proof.Machine

/-- `sum_step` (R65): addition modulo 256, the carry dropped. -/
def sumStep (s b : Byte) : Byte := s + b

/-- `checksum` (R66): `sum_step` folded from 0. -/
def checksum (p : List Byte) : Byte := p.foldl sumStep 0x00

/-- `SUMCLR` (R67). -/
def execSumclr (s : State) : Result := respond 0 (s.setSum 0x00)

/-- `SUMADD imm` (R68). -/
def execSumadd (imm : Byte) (s : State) : Result := respond 0 (s.setSum (sumStep s.sum imm))

/-- `SUMRD` (R69). -/
def execSumrd (s : State) : Result := respond (zext16 s.sum) s

/-- `BSUM` (R70): it starts from 0, not from the old `SUM`. -/
def execBsum (s : State) : Result :=
  withPayload s fun p => respond (zext16 (checksum p)) (s.setSum (checksum p))

end Sys2Proof.Machine
end

