-- ==== Sys2Proof/Machine/Crc.lean ====
section
/-! DEFINITION. The CRC-16 generator (spec/41_crc16.md): `CRCCLR`, `CRCUPD`, `CRCRD`, `BCRC`. -/

namespace Sys2Proof.Machine

/-- `crc_step` (R76): the table is indexed by the high byte of the running CRC exclusive-or the next byte. -/
def crcStep (c : Word) (b : Byte) : Word := (c <<< 8) ^^^ crcTable (highByte c ^^^ b)

/-- `crc16` (R77): `crc_step` folded from 0x0000 in wire order; no reflection, no final exclusive-or (C1). -/
def crc16 (p : List Byte) : Word := p.foldl crcStep Config.crcInit

/-- `crc_step_bits` (R78): the bit-serial form of one step, for hardware that has no table. -/
def crcStepBits (c : Word) (b : Byte) : Word := crcShiftN 8 (c ^^^ (zext16 b <<< 8))

/-- `CRCCLR` (R80). -/
def execCrcclr (s : State) : Result := respond 0 (s.setCrc Config.crcInit)

/-- `CRCUPD imm` (R81). -/
def execCrcupd (imm : Byte) (s : State) : Result := respond 0 (s.setCrc (crcStep s.crc imm))

/-- `CRCRD` (R82). -/
def execCrcrd (s : State) : Result := respond s.crc s

/-- `BCRC` (R83): it starts from 0x0000, not from the old `CRC`. -/
def execBcrc (s : State) : Result :=
  withPayload s fun p => respond (crc16 p) (s.setCrc (crc16 p))

end Sys2Proof.Machine
end

