-- ==== Sys2Proof/Machine/Payload.lean ====
section
/-! DEFINITION. The payload buffer (spec/42_payload_buffer.md): `PCLR`, `PWR`, `PPAD`, `PRD`, `PLENRD`, `PTRIM`. -/

namespace Sys2Proof.Machine

/-- `trim_len` (R95): the length without the trailing filler bytes. -/
def trimLen (p : List Byte) : Nat := (p.reverse.dropWhile (fun b => decide (b = Config.filler))).length

/-- `PCLR` (R90): the bytes are not erased, only no longer valid. DEDUCED (log 12): R90's remark that nothing else but reset
lowers `PLEN` is read of the commands of spec/42_payload_buffer.md; `UNPACK` sets it to 128 by R14, R108 and R206. -/
def execPclr (s : State) : Result := respond 0 (s.setPayload s.pbuf 0)

/-- `PWR imm` (R91): append at `PLEN`; a byte past the 128th is dropped but counted. -/
def execPwr (imm : Byte) (s : State) : Result :=
  respond 0 (s.setPayload (appendCell .payload s.pbuf s.plen imm) (bumpCount s.plen))

/-- The cells of `PBUF` after padding: filler at `PLEN`, …, 127 (R92). -/
def padCells (m : Memory) (count : Byte) : Memory :=
  m.writeAll count.toNat (List.replicate (Config.payloadLen - count.toNat) Config.filler)

/-- `PPAD` (R92): nothing changes where `PLEN` is 128 or more. -/
def execPpad (s : State) : Result :=
  if s.plen.toNat < Config.payloadLen then respond 0 (s.setPayload (padCells s.pbuf s.plen) 128)
  else respond 0 s

/-- `PRD imm` (R93). -/
def execPrd (imm : Byte) (s : State) : Result := readIndexed .payload imm s

/-- `PLENRD` (R94). -/
def execPlenrd (s : State) : Result := respond (zext16 s.plen) s

/-- `PTRIM` (R96): a query, it changes no state. -/
def execPtrim (s : State) : Result :=
  withPayload s fun p => respond (BitVec.ofNat 16 (trimLen p)) s

end Sys2Proof.Machine
end

