-- ==== Sys2Proof/Machine/Framer.lean ====
section
/-! DEFINITION. The block framer (spec/43_framer.md): `SETMODE`, `MODERD`, `PACK`, `UNPACK`, `FCLR`, `FWR`, `FRD`, `FLENRD`,
`SEQRD`, `STATRD`. -/

namespace Sys2Proof.Machine

/-- The validator of a payload as bytes of a frame: one byte, or two with the high byte first (R33, R46, R47). -/
def validatorBytes : Mode → List Byte → List Byte
  | .checksum, p => [checksum p]
  | .crc, p => [highByte (crc16 p), lowByte (crc16 p)]

/-- `frame(m, seq, P)` (R102). -/
def frame (m : Mode) (seq : Byte) (p : List Byte) : List Byte :=
  [Config.soh, seq, 0xFF - seq] ++ p ++ validatorBytes m p

/-- The selected accumulator takes the validator of the payload; the other keeps its value (R103, R108). -/
def State.setValidator (s : State) (p : List Byte) : State :=
  match s.mode with
  | .checksum => s.setSum (checksum p)
  | .crc => s.setCrc (crc16 p)

/-- `SETMODE imm` (R100). -/
def execSetmode (imm : Byte) (s : State) : Result :=
  if 1 < imm.toNat then raise .illegalCommand s else respond 0 (s.setMode (Mode.ofOperand imm))

/-- `MODERD` (R101). -/
def execModerd (s : State) : Result := respond s.mode.data s

/-- `PACK imm` (R103): the frame is written from index 0 and replaces `FLEN`; `FBUF[132]` is not written in checksum mode. -/
def execPack (imm : Byte) (s : State) : Result :=
  withPayload s fun p =>
    let n := BitVec.ofNat 8 (frameLen s.mode)
    respond (zext16 n) ((s.setValidator p).setFrame (s.fbuf.writeAll 0 (frame s.mode imm p)) n)

/-- `FCLR` (R104): the bytes are not erased, only no longer valid. -/
def execFclr (s : State) : Result := respond 0 (s.setFrame s.fbuf 0)

/-- `FWR imm` (R105): append at `FLEN`; a byte past the 133rd is dropped but counted. -/
def execFwr (imm : Byte) (s : State) : Result :=
  respond 0 (s.setFrame (appendCell .frame s.fbuf s.flen imm) (bumpCount s.flen))

/-- `FRD imm` (R106). -/
def execFrd (imm : Byte) (s : State) : Result := readIndexed .frame imm s

/-- `FLENRD` (R107). -/
def execFlenrd (s : State) : Result := respond (zext16 s.flen) s

/-- The payload of the frame in `FBUF`, indices 3 to 130 (R46, R47). -/
def State.framePayload (s : State) : List Byte := s.bytesFrom .frame 3 Config.payloadLen

/-- `check_ok` (R108): the validator of the received payload is the one in the frame, `FBUF[131]` being the CRC's high
byte (R33). -/
def State.checkOk (s : State) : Bool :=
  match s.mode with
  | .checksum => decide (checksum s.framePayload = s.byteAt .frame 131)
  | .crc => decide (crc16 s.framePayload = s.byteAt .frame 131 ++ s.byteAt .frame 132)

/-- The three result bits of `UNPACK`, computed independently of one another (R108). -/
def State.unpackStat (s : State) : BitVec 3 :=
  statBits (decide (s.byteAt .frame 0 = Config.soh)) (pairOk (s.byteAt .frame 1) (s.byteAt .frame 2)) s.checkOk

/-- `UNPACK` (R108): the payload is copied and the validator computed whatever the three bits say. `PLEN` is 128 afterwards,
also where it was above (R14, R206; DEDUCED, log 12, against R90's remark). -/
def execUnpack (s : State) : Result :=
  if s.flen.toNat = frameLen s.mode then
    respond (s.unpackStat.zeroExtend 16)
      (((s.setValidator s.framePayload).setPayload (s.pbuf.writeAll 0 s.framePayload) 128).setUnpacked
        (s.byteAt .frame 1) s.unpackStat)
  else raise .invalidFrameSize s

/-- `SEQRD` (R109). -/
def execSeqrd (s : State) : Result := respond (zext16 s.rseq) s

/-- `STATRD` (R110). -/
def execStatrd (s : State) : Result := respond (s.stat.zeroExtend 16) s

end Sys2Proof.Machine
end

