-- ==== Sys2Proof/Machine/System.lean ====
section
/-! DEFINITION. The system command (spec/44_system.md): `ERRRD`. -/

namespace Sys2Proof.Machine

/-- `ERRRD` (R120): reading does not clear `ERR`. -/
def execErrrd (s : State) : Result := respond (s.err.zeroExtend 16) s

end Sys2Proof.Machine
end

