-- ==== Sys2Proof/Machine/Dispatch.lean ====
section
/-! DEFINITION. One arm per command, each the call of its meaning (R52). -/

namespace Sys2Proof.Machine

/-- What a decoded command does. -/
def exec (i : Instr) (s : State) : Host.Outcome State Fault Refusal :=
  match i with
  | .sumclr => Sys2Proof.Machine.execSumclr s
  | .sumadd imm => Sys2Proof.Machine.execSumadd imm s
  | .sumrd => Sys2Proof.Machine.execSumrd s
  | .bsum => Sys2Proof.Machine.execBsum s
  | .crcclr => Sys2Proof.Machine.execCrcclr s
  | .crcupd imm => Sys2Proof.Machine.execCrcupd imm s
  | .crcrd => Sys2Proof.Machine.execCrcrd s
  | .bcrc => Sys2Proof.Machine.execBcrc s
  | .pclr => Sys2Proof.Machine.execPclr s
  | .pwr imm => Sys2Proof.Machine.execPwr imm s
  | .ppad => Sys2Proof.Machine.execPpad s
  | .prd imm => Sys2Proof.Machine.execPrd imm s
  | .plenrd => Sys2Proof.Machine.execPlenrd s
  | .ptrim => Sys2Proof.Machine.execPtrim s
  | .setmode imm => Sys2Proof.Machine.execSetmode imm s
  | .pack imm => Sys2Proof.Machine.execPack imm s
  | .unpack => Sys2Proof.Machine.execUnpack s
  | .fclr => Sys2Proof.Machine.execFclr s
  | .fwr imm => Sys2Proof.Machine.execFwr imm s
  | .frd imm => Sys2Proof.Machine.execFrd imm s
  | .flenrd => Sys2Proof.Machine.execFlenrd s
  | .seqrd => Sys2Proof.Machine.execSeqrd s
  | .statrd => Sys2Proof.Machine.execStatrd s
  | .moderd => Sys2Proof.Machine.execModerd s
  | .errrd => Sys2Proof.Machine.execErrrd s

end Sys2Proof.Machine
end

