-- ==== Sys2Proof/Machine/Step.lean ====
section
/-! DEFINITION. One step of the block: it takes the host's next input, a command word or the reset event (R3, R161). -/

namespace Sys2Proof.Machine

/-- A command word: decoded first (R173), an illegal one raises `IllegalCommand` (R53, R54), a legal one is executed. -/
def runWord (w : Word) (s : State) : Host.Outcome State Fault Refusal :=
  match decode w with
  | .command i => exec i s
  | .reject _ => raise .illegalCommand s

/-- The step. With no input the block waits unchanged (log 4). -/
def step (s : State) : Host.Outcome State Fault Refusal :=
  match s.takeInput? with
  | none => .next s
  | some (.command w, t) => runWord w t
  | some (.reset, t) => .next t.resetEvent

/-- `s` with the opcode table's word `w` presented next, so that the very next step runs it (log 3). -/
def State.withFetchWord (s : State) (nbits w : Nat) : State := s.presentFirst (tableWord nbits w)

end Sys2Proof.Machine
end

