-- ==== Sys2Proof/Machine/Assembler.lean ====
section
/-! DEFINITION. The assembler's line syntax (R57) and the pseudo-instructions (R58), as functions to command words. The
block itself knows neither: what the host presents is words. Where R57 is silent on spacing the form is strict (log 15). -/

namespace Sys2Proof.Machine

/-- The pseudo-instructions of R58. -/
inductive Pseudo where
  /-- `PLOAD b0, …`: load payload bytes from empty -/
  | pload (bytes : List Byte)
  /-- `PLOADPAD b0, …`: load a short payload and pad it -/
  | ploadpad (bytes : List Byte)
  /-- `FLOAD b0, …`: load frame bytes from empty -/
  | fload (bytes : List Byte)
  /-- `MODE.SUM` -/
  | modeSum
  /-- `MODE.CRC` -/
  | modeCrc
  deriving DecidableEq, Repr

/-- `PLOADPAD` takes at most 128 bytes (R58). -/
def Pseudo.wellFormed : Pseudo → Bool
  | .ploadpad bytes => decide (bytes.length ≤ 128)
  | .pload _ | .fload _ | .modeSum | .modeCrc => true

/-- The fixed sequence of commands a pseudo-instruction stands for (R58). -/
def Pseudo.expand : Pseudo → List Instr
  | .pload bytes => .pclr :: bytes.map .pwr
  | .ploadpad bytes => .pclr :: bytes.map .pwr ++ [.ppad]
  | .fload bytes => .fclr :: bytes.map .fwr
  | .modeSum => [.setmode 0]
  | .modeCrc => [.setmode 1]

/-- The word of a mnemonic and its operand: `op << 8 | imm`, `imm = 0` without operand (R57). None where the mnemonic is
not of R52 or the operand is missing or too many. Whether the word is legal is the decoder's question. -/
def assembleWord (mnemonic : String) (operand : Option Byte) : Option Word :=
  match opcodeMap.find? (fun r => decide (r.mnemonic = mnemonic)), operand with
  | some r, none => if r.mask = 0xFFFF then some r.pattern else none
  | some r, some imm => if r.mask = 0xFFFF then none else some (opField r.pattern ++ imm)
  | none, _ => none

/-! ## Text (R57) -/

/-- The double quote, which opens a string. -/
def asmQuote : Char := Char.ofNat 34

/-- The single quote, which opens a character constant. -/
def asmTick : Char := Char.ofNat 39

/-- The character of a character constant that stands at the head: a single quote, ONE character of any kind, a single
quote. DESIGN CHOICE (log 15): R57 does not say how the single quote itself is written; here it is the one character like
any other, so three single quotes are 0x27. -/
def charConstant? (a c b : Char) : Option Char := if a = asmTick ∧ b = asmTick then some c else none

/-- Each character of a line with whether it is quoted: part of a character constant (`charConstant?`) or of a string. The
first argument says whether a string is open. -/
def markQuoted : Bool → List Char → List (Char × Bool)
  | false, a :: c :: b :: cs =>
    if (charConstant? a c b).isSome then (a, true) :: (c, true) :: (b, true) :: markQuoted false cs
    else (a, decide (a = asmQuote)) :: markQuoted (decide (a = asmQuote)) (c :: b :: cs)
  | open_, c :: cs => (c, open_ || decide (c = asmQuote)) :: markQuoted (open_ != decide (c = asmQuote)) cs
  | _, [] => []

/-- The line without its comment, which runs from `;` to the end of the line (R57). DESIGN CHOICE (log 15): a quoted `;`
begins none. -/
def stripComment (line : List Char) : List Char :=
  ((markQuoted false line).takeWhile fun x => decide (x ≠ (';', false))).map Prod.fst

/-- The value of a digit in a base. -/
def digitValue (base : Nat) (c : Char) : Option Nat :=
  let n := c.toNat
  let v := if 48 ≤ n ∧ n ≤ 57 then n - 48 else if 65 ≤ n ∧ n ≤ 70 then n - 55 else if 97 ≤ n ∧ n ≤ 102 then n - 87 else base
  if v < base then some v else none

/-- The number that a run of digits writes, `acc` being what stands before it. -/
def digitsValue (base : Nat) : Nat → List Char → Option Nat
  | acc, [] => some acc
  | acc, c :: cs =>
    match digitValue base c with
    | some v => digitsValue base (acc * base + v) cs
    | none => none

/-- A number below 256 as a byte. -/
def byteOfNat? (n : Nat) : Option Byte := if n < 256 then some (BitVec.ofNat 8 n) else none

/-- The ASCII code of a character (00_scope.md section 7). -/
def asciiByte? (c : Char) : Option Byte := if c.toNat < 128 then some (BitVec.ofNat 8 c.toNat) else none

/-- An operand: hexadecimal after `0x`, decimal, or a character constant in single quotes (R57; the single quote itself as
`charConstant?` says, log 15). -/
def operandByte? : List Char → Option Byte
  | [] => none
  | '0' :: 'x' :: d :: ds => (digitsValue 16 0 (d :: ds)).bind byteOfNat?
  | [a, c, b] =>
    match charConstant? a c b with
    | some v => asciiByte? v
    | none => (digitsValue 10 0 [a, c, b]).bind byteOfNat?
  | cs => (digitsValue 10 0 cs).bind byteOfNat?

/-- The bytes of a list item: an operand, or a string in double quotes for its ASCII bytes (R58). DESIGN CHOICE (log 15): R58
does not say how a string writes the double quote; here it cannot, and an item with a further double quote refuses the line. -/
def itemBytes? (cs : List Char) : Option (List Byte) :=
  match cs with
  | [] => none
  | c :: rest =>
    if c = asmQuote then
      match rest.reverse with
      | q :: body => if q = asmQuote ∧ asmQuote ∉ body then body.reverse.mapM asciiByte? else none
      | [] => none
    else (operandByte? cs).map fun b => [b]

/-- The items of a list, split at an unquoted comma. The first argument is the item so far, last character first. DESIGN
CHOICE (log 15): R58 does not speak of spaces; here any number of spaces before an item is dropped, before the first as
well as after a comma, and no other space is. -/
def splitItems : List Char → List (Char × Bool) → List (List Char)
  | acc, [] => [acc.reverse]
  | acc, x :: xs =>
    if x = (',', false) then acc.reverse :: splitItems [] xs
    else if x = (' ', false) ∧ acc = [] then splitItems [] xs
    else splitItems (x.1 :: acc) xs

/-- The bytes of a pseudo-instruction's operand list; no text is the empty list. -/
def listBytes? (cs : List Char) : Option (List Byte) :=
  if cs = [] then some [] else ((splitItems [] (markQuoted false cs)).mapM itemBytes?).map List.flatten

/-- A pseudo-instruction by its name and operand text (R58). -/
def pseudo? (name : String) (operands : List Char) : Option Pseudo :=
  if name = "PLOAD" then (listBytes? operands).map .pload
  else if name = "PLOADPAD" then (listBytes? operands).map .ploadpad
  else if name = "FLOAD" then (listBytes? operands).map .fload
  else if name = "MODE.SUM" ∧ operands = [] then some .modeSum
  else if name = "MODE.CRC" ∧ operands = [] then some .modeCrc
  else none

/-- The words of one line (R57, R58): none where the line does not follow the syntax, the empty list where it holds
nothing but a comment. Where the rules are silent on spacing the form is that of log 15 (DESIGN CHOICE): the mnemonic starts
the line, the first space after it is the one before the operand, and trailing spaces are dropped; further spaces before an
operand refuse a command, and before a list item are dropped (`splitItems`). -/
def assembleLine (line : List Char) : Option (List Word) :=
  let text := ((stripComment line).reverse.dropWhile (fun c => decide (c = ' '))).reverse
  let name := String.ofList (text.takeWhile (fun c => decide (c ≠ ' ')))
  let operands := (text.dropWhile (fun c => decide (c ≠ ' '))).drop 1
  if text = [] then some []
  else match pseudo? name operands with
    | some p => if p.wellFormed then some (p.expand.map encode) else none
    | none =>
      if operands = [] then (assembleWord name none).map fun w => [w]
      else ((operandByte? operands).bind fun imm => assembleWord name (some imm)).map fun w => [w]

end Sys2Proof.Machine
end

