-- ==== Sys2Proof/Machine/Session.lean ====
section
/-! DEFINITION. What the two engines of the host share (spec/45_host_protocol.md section 1): configuration, errors, phases,
the channel's events, and how a host issues commands to its block. The host is no part of the block and of `step`; it
stands beside it (00_scope.md section 4). -/

namespace Sys2Proof.Machine

/-- The configuration surface with the document's defaults (R126). `timeoutDuration` counts time-units, whose length is
open (N13): no rule computes with it but the bounds of R127. -/
structure HostConfig where
  /-- `timeout_duration` -/
  timeoutDuration : Nat := 5
  /-- `max_timeouts` before the sender gives up -/
  maxTimeouts : Nat := 5
  /-- `max_errors` per block before the receiver gives up -/
  maxErrors : Nat := 10
  /-- `crc_attempts` -/
  crcAttempts : Nat := 3
  /-- `mode`, the receiver's preference -/
  mode : Mode := .checksum
  deriving DecidableEq, Repr

/-- Host behaviour that the source leaves open and this model leaves open too, as parameters (log 7). -/
structure HostChoices where
  /-- N10: after an invalid sequence pair the receiver reads the rest of the block before it sends NAK -/
  readRestAfterBadPair : Bool
  /-- N20: a CRC-request byte after the first block makes the sender retransmit (else it is ignored) -/
  lateCrcRequestRetransmits : Bool
  /-- N21: a NAK after EOT makes the sender send EOT again (else it retransmits the block) -/
  nakAfterEotResendsEot : Bool
  deriving DecidableEq, Repr

/-- The host's error kinds (R156). None has a code in the block. -/
inductive HostError where
  /-- sequence number outside the two tolerated values -/
  | syncError
  /-- per-block error budget exhausted by a mismatch -/
  | checksumExceeded
  /-- per-block error budget exhausted by a time-out, or no response to the sender -/
  | timeoutExceeded
  /-- channel closed or source exhausted mid-protocol -/
  | unexpectedEndOfChannel
  deriving DecidableEq, Repr

/-- The role of an engine, held in its transfer session (R125). -/
inductive Role where
  /-- the Sender Engine -/
  | sender
  /-- the Receiver Engine -/
  | receiver
  deriving DecidableEq, Repr

/-- The states of both engines (R158). They are left in this order only (log 18). -/
inductive Phase where
  /-- `INIT`: created; the receiver drains stray bytes (R131), the sender has yet to load its first block (R141) -/
  | init
  /-- `NEGOTIATING`: the receiver has asked for a mode and awaits the first byte (R132), the sender awaits its first request
  (R144) -/
  | negotiating
  /-- `TRANSFERRING`: blocks are exchanged -/
  | transferring
  /-- `EOT_PENDING`: the sender has sent EOT and awaits its ACK (R147) -/
  | eotPending
  /-- `DONE`: success -/
  | done
  /-- `ABORTED`: terminal failure (R157) -/
  | aborted (e : HostError)
  deriving DecidableEq, Repr

/-- The terminal flag of a session (R125): the engine's loop has exited. -/
def Phase.terminal : Phase → Bool
  | .done | .aborted _ => true
  | .init | .negotiating | .transferring | .eotPending => false

/-- The place of a state in the order of R158. -/
def Phase.rank : Phase → Nat
  | .init => 0
  | .negotiating => 1
  | .transferring => 2
  | .eotPending => 3
  | .done | .aborted _ => 4

/-- What a bounded wait on the channel answers (R127, R128). -/
inductive ChannelEvent where
  /-- a byte arrived -/
  | byte (b : Byte)
  /-- the bound expired without data -/
  | timeout
  /-- the channel is closed, or the source failed mid-protocol (R128, R145, R156) -/
  | ended
  deriving DecidableEq, Repr

/-- The host issues one command and the block runs it. (No block stops: `Fault` is empty and no command is refused.) -/
def issue (i : Instr) (s : State) : State :=
  match runWord (encode i) s with
  | .next t => t
  | .fault f => nomatch f
  | .refused _ => s

/-- The host issues commands one after another. -/
def issueAll : List Instr → State → State
  | [], s => s
  | i :: is, s => issueAll is (issue i s)

/-- The data of the block's last response, if it was `ok`. -/
def okData? (s : State) : Option Word :=
  match s.response with
  | some (.ok d) => some d
  | some (.fault _) | none => none

/-- The host reads `n` bytes out of a buffer, from index `i` on, by the indexed read `rd` (`PRD` or `FRD`): the block after
the reads and the bytes answered. -/
def readOut (rd : Byte → Instr) : Nat → Nat → State → State × List Byte
  | _, 0, s => (s, [])
  | i, n + 1, s =>
    let t := issue (rd (BitVec.ofNat 8 i)) s
    let (u, bs) := readOut rd (i + 1) n t
    (u, ((okData? t).map lowByte).toList ++ bs)

end Sys2Proof.Machine
end

