-- ==== Sys2Proof/Machine/Receiver.lean ====
section
/-! DEFINITION. The receiver engine (spec/45_host_protocol.md sections 2 and 4) as a reaction to channel events, driving a
block through its commands. -/

namespace Sys2Proof.Machine

/-- The held-back payload (R125) with the mark that it has been flushed. DESIGN CHOICE (log 9): the mark is what keeps a
payload from being flushed twice, which N11 leaves to the model. -/
structure Held where
  /-- the last accepted payload -/
  payload : List Byte
  /-- it is in the sink already -/
  flushed : Bool
  deriving DecidableEq, Repr

/-- The receiver's transfer session (R125), its block, and what it has written to the channel and to the sink. -/
structure Receiver where
  /-- `role` -/
  role : Role
  /-- where the transfer stands (R158), with the terminal flag (`Phase.terminal`) -/
  phase : Phase
  /-- the negotiated mode -/
  mode : Mode
  /-- the mode last asked for: CRC by a CRC request, checksum by the legacy NAK (R132); none before -/
  asked : Option Mode
  /-- CRC-request bytes sent so far (R132) -/
  attempts : Nat
  /-- `expected_sequence` -/
  expected : Byte
  /-- `error_count` -/
  errorCount : Nat
  /-- `pending_block`, the held-back payload -/
  held : Option Held
  /-- `timeout_duration`, taken from the configuration at creation (R126) -/
  timeoutDuration : Nat
  /-- the bytes of the block being read, `SOH` first; empty while a command byte is awaited -/
  partialFrame : List Byte
  /-- the block this engine owns (R3) -/
  block : State
  /-- bytes written to the channel, oldest first -/
  sent : List Byte
  /-- bytes appended to the sink, oldest first -/
  sink : List Byte
  deriving DecidableEq, Repr

/-- A session at its creation with a freshly reset block (R125, R199); `expected_sequence` starts at 1 (R133). -/
def Receiver.start (c : HostConfig) : Receiver where
  role := .receiver
  phase := .init
  mode := .checksum
  asked := none
  attempts := 0
  expected := 1
  errorCount := 0
  held := none
  timeoutDuration := c.timeoutDuration
  partialFrame := []
  block := State.reset
  sent := []
  sink := []

/-- The receiver waits up to this for each byte (R127). -/
def Receiver.wait (r : Receiver) : Nat := r.timeoutDuration

/-- What the sequence test says of a block (R136). -/
inductive SequenceClass where
  /-- outside the two tolerated values: fatal -/
  | outOfWindow
  /-- an invalid pair: a block-level error -/
  | corrupt
  /-- the expected sequence -/
  | newBlock
  /-- the one before it (R143) -/
  | duplicate
  deriving DecidableEq, Repr

/-- The tests of R136 in their order (C4): the window first, then the pair. -/
def classifySequence (expected seq : Byte) (pairIsOk : Bool) : SequenceClass :=
  if seq ≠ expected ∧ seq ≠ expected - 1 then .outOfWindow
  else if pairIsOk = false then .corrupt
  else if seq = expected then .newBlock
  else .duplicate

/-- Write one byte to the channel. -/
def Receiver.send (r : Receiver) (b : Byte) : Receiver := { r with sent := r.sent ++ [b] }

/-- The engine's block runs commands. -/
def Receiver.command (r : Receiver) (is : List Instr) : Receiver := { r with block := issueAll is r.block }

/-- Fail with an error kind: terminal, nothing is retracted from the sink (R157). -/
def Receiver.abort (r : Receiver) (e : HostError) : Receiver := { r with phase := .aborted e }

/-- A block-level error (R133, R140, R142): NAK, count, and fail with the kind of the cause that crosses the ceiling
(log 8). The partial frame is abandoned (R151). -/
def Receiver.blockError (c : HostConfig) (r : Receiver) (kind : HostError) : Receiver :=
  let t := { r.send Config.nak with errorCount := r.errorCount + 1, partialFrame := [] }
  if c.maxErrors < t.errorCount then t.abort kind else t

/-- The mode is settled: `SETMODE` tells the block (R132). -/
def Receiver.settleMode (r : Receiver) (m : Mode) : Receiver :=
  { r.command [.setmode (m.code.zeroExtend 8)] with mode := m }

/-- Fall back to, or ask for, legacy mode: NAK and checksum mode (R132). -/
def Receiver.requestLegacy (r : Receiver) : Receiver :=
  { (r.send Config.nak).settleMode .checksum with asked := some .checksum, phase := .negotiating }

/-- Send the CRC-request byte once more (R132). -/
def Receiver.requestCrc (r : Receiver) : Receiver :=
  { r.send Config.crcReq with asked := some .crc, attempts := r.attempts + 1, phase := .negotiating }

/-- The negotiation is over and the main loop begins: CRC mode if a response came to a CRC request, else the checksum mode
that the legacy NAK has settled already (R132). -/
def Receiver.enterMainLoop (r : Receiver) : Receiver :=
  { (if r.asked = some .crc then r.settleMode .crc else r) with phase := .transferring }

/-- One turn of the negotiation (R132): the next CRC request while attempts are left, else legacy mode. -/
def Receiver.negotiate (c : HostConfig) (r : Receiver) : Receiver :=
  if c.mode = .crc ∧ r.attempts < c.crcAttempts then r.requestCrc else r.requestLegacy

/-- The held-back payload that has still to be flushed. -/
def Receiver.unflushed (r : Receiver) : Option (List Byte) :=
  r.held.bind fun h => if h.flushed then none else some h.payload

/-- The held-back payload is in the sink now, and stays held with the mark (log 9). -/
def Receiver.markFlushed (r : Receiver) : Receiver := { r with held := r.held.map fun h => { h with flushed := true } }

/-- Flush the held-back payload whole (R137). -/
def Receiver.flushWhole (r : Receiver) : Receiver := { r.markFlushed with sink := r.sink ++ r.unflushed.getD [] }

/-- Flush the held-back payload without its trailing filler (R135), its length taken from the block by `PTRIM` (R153);
nothing is flushed where nothing is held (log 10) or where the payload held has been flushed (log 9). -/
def Receiver.flushFinal (r : Receiver) : Receiver :=
  match r.unflushed with
  | none => r
  | some p =>
    let t := r.markFlushed.command ((Pseudo.pload p).expand ++ [.ptrim])
    { t with sink := t.sink ++ p.take (((okData? t.block).map BitVec.toNat).getD 0) }

/-- Hold a payload as the new `pending_block` (R139), on every match. A new block's has not been flushed; a duplicate's is as
its accepted block's, which it replaces (R143). Where nothing is held, no block has been accepted, and the block of sequence
0 that comes first is held to be flushed (log 19). -/
def Receiver.hold (r : Receiver) (p : List Byte) (isNew : Bool) : Receiver :=
  { r with held := some { payload := p, flushed := !isNew && (r.held.map Held.flushed).getD false } }

/-- A command byte of the main loop (R133, R134, R135). -/
def Receiver.commandByte (r : Receiver) (b : Byte) : Receiver :=
  if b = Config.soh then { r.command [.fclr, .fwr Config.soh] with partialFrame := [Config.soh] }
  else if b = Config.eot then { (r.send Config.ack).flushFinal with phase := .done }
  else r

/-- The sequence test as soon as the check byte has been read (R136, R137). -/
def Receiver.headerRead (c : HostConfig) (ch : HostChoices) (r : Receiver) (seq chk : Byte) : Receiver :=
  match classifySequence r.expected seq (pairOk seq chk) with
  | .outOfWindow => r.abort .syncError
  | .corrupt => if ch.readRestAfterBadPair then r else r.blockError c .checksumExceeded
  | .newBlock => r.flushWhole
  | .duplicate => r

/-- The data of a response to a command of `frameRead`, 0 where it is a fault. (R151 never unpacks a frame of the wrong
length, so no fault comes while the block is in the engine's mode; otherwise `STAT` 0 makes a block-level error, log 5.) -/
def responseData (s : State) : Word := (okData? s).getD 0

/-- The whole block has been read: `UNPACK` responds `STAT`, `SEQRD` the sequence byte, R136 is applied, then R138 to R143,
and on a match the payload is read out with `PRD` (R152) and held. -/
def Receiver.frameRead (c : HostConfig) (r : Receiver) : Receiver :=
  let u := r.command [.unpack]
  let stat := (responseData u.block).truncate 3
  let v := u.command [.seqrd]
  let t := { v with partialFrame := [] }
  let (b, p) := readOut .prd 0 Config.payloadLen t.block
  match classifySequence t.expected (lowByte (responseData v.block)) (statPairOk stat), statCheckOk stat with
  | .outOfWindow, _ => t.abort .syncError
  | .corrupt, _ | .newBlock, false | .duplicate, false => t.blockError c .checksumExceeded
  | .newBlock, true => { (t.send Config.ack).hold p true with block := b, expected := t.expected + 1, errorCount := 0 }
  | .duplicate, true => { (t.send Config.ack).hold p false with block := b }

/-- One further byte of a block: `FWR`, and the tests that become possible (R151, R152). -/
def Receiver.blockByte (c : HostConfig) (ch : HostChoices) (r : Receiver) (b : Byte) : Receiver :=
  let t := { r.command [.fwr b] with partialFrame := r.partialFrame ++ [b] }
  if t.partialFrame.length = 3 then t.headerRead c ch (t.partialFrame.getD 1 0) b
  else if t.partialFrame.length = frameLen t.mode then t.frameRead c
  else t

/-- A byte in the main loop: of a block if one has been begun, else a command byte. -/
def Receiver.mainByte (c : HostConfig) (ch : HostChoices) (r : Receiver) (b : Byte) : Receiver :=
  if r.partialFrame = [] then r.commandByte b else r.blockByte c ch b

/-- The receiver's reaction to what its bounded wait answers. The drain ends with the first wait without data (log 6), and
the byte that answers a CRC request is the first of the main loop (log 13). -/
def Receiver.react (c : HostConfig) (ch : HostChoices) (r : Receiver) (e : ChannelEvent) : Receiver :=
  match r.phase, e with
  | .init, .byte _ => r
  | .init, .timeout => r.negotiate c
  | .negotiating, .byte b => r.enterMainLoop.mainByte c ch b
  | .negotiating, .timeout =>
    if r.asked = some .crc then r.negotiate c else r.enterMainLoop.blockError c .timeoutExceeded
  | .transferring, .byte b => r.mainByte c ch b
  | .transferring, .timeout => r.blockError c .timeoutExceeded
  | .init, .ended | .negotiating, .ended | .transferring, .ended => r.abort .unexpectedEndOfChannel
  | .eotPending, _ | .done, _ | .aborted _, _ => r

end Sys2Proof.Machine
end

