-- ==== Sys2Proof/Machine/Sender.lean ====
section
/-! DEFINITION. The sender engine (spec/45_host_protocol.md sections 3 and 5) as a reaction to channel events, driving a
block through its commands. -/

namespace Sys2Proof.Machine

/-- The sender's transfer session (R125), its block, its source and what it has written to the channel. -/
structure Sender where
  /-- `role` -/
  role : Role
  /-- where the transfer stands (R158), with the terminal flag (`Phase.terminal`) -/
  phase : Phase
  /-- the mode: checksum until a CRC request comes at the first block (R146) -/
  mode : Mode
  /-- `current_sequence` -/
  current : Byte
  /-- `error_count`, 0 on each accepted block; no rule of the sender counts up (log 18) -/
  errorCount : Nat
  /-- `timeout_duration`, taken from the configuration at creation (R126) -/
  timeoutDuration : Nat
  /-- the "EOT-sent" mark -/
  eotSent : Bool
  /-- what the source still has -/
  source : List Byte
  /-- the block this engine owns (R3) -/
  block : State
  /-- bytes written to the channel, oldest first -/
  sent : List Byte
  deriving DecidableEq, Repr

/-- Load the next block from the source: `PCLR`, a `PWR` for each of up to 128 bytes, `PPAD` (R141, R154). -/
def Sender.load (t : Sender) : Sender :=
  { t with
    block := issueAll (Pseudo.ploadpad (t.source.take Config.payloadLen)).expand t.block
    source := t.source.drop Config.payloadLen }

/-- A session at its creation, `INIT`: the block freshly reset, nothing loaded, `current_sequence` 1 (R125, R144, R199). -/
def Sender.start (c : HostConfig) (source : List Byte) : Sender where
  role := .sender
  phase := .init
  mode := .checksum
  current := 1
  errorCount := 0
  timeoutDuration := c.timeoutDuration
  eotSent := false
  source := source
  block := State.reset
  sent := []

/-- The sender waits up to this for a response byte (R127, R144). -/
def Sender.wait (c : HostConfig) (t : Sender) : Nat := t.timeoutDuration * c.maxTimeouts

/-- The sender's step 1, `INIT` to `NEGOTIATING`: the first 128 bytes are loaded (R141, R158). An empty source gives a block
of filler (log 11). -/
def Sender.begin (t : Sender) : Sender := { t.load with phase := .negotiating }

/-- (Re)transmit the current block: `PACK`, then read it out with `FRD` (R149, R154). After EOT the state stays
`EOT_PENDING` (R158). -/
def Sender.transmit (t : Sender) : Sender :=
  let b := issue (.pack t.current) t.block
  let (u, bytes) := readOut .frd 0 b.flen.toNat b
  { t with block := u, sent := t.sent ++ bytes, phase := if t.eotSent then .eotPending else .transferring }

/-- Send EOT and mark it sent (R147). -/
def Sender.sendEot (t : Sender) : Sender :=
  { t with sent := t.sent ++ [Config.eot], eotSent := true, phase := .eotPending }

/-- An ACK (R147): the end, or EOT, or the next block; the block is accepted, so `error_count` is 0 (R125). -/
def Sender.acked (t : Sender) : Sender :=
  let u := { t with errorCount := 0 }
  if u.eotSent then { u with phase := .done }
  else if u.source = [] then u.sendEot
  else ({ u with current := u.current + 1 } : Sender).load.transmit

/-- A CRC-request byte (R146): at the first block it switches the mode; later it is open (N20). -/
def Sender.crcRequested (ch : HostChoices) (t : Sender) : Sender :=
  if t.current = 1 then
    ({ t with mode := .crc, block := issue (.setmode 1) t.block } : Sender).transmit
  else if ch.lateCrcRequestRetransmits then t.transmit
  else t

/-- A NAK (R148): retransmit unchanged; after EOT it is open (N21). -/
def Sender.naked (ch : HostChoices) (t : Sender) : Sender :=
  if t.eotSent && ch.nakAfterEotResendsEot then t.sendEot else t.transmit

/-- A response byte; any other byte is ignored (R150). -/
def Sender.responseByte (ch : HostChoices) (t : Sender) (b : Byte) : Sender :=
  if b = Config.ack then t.acked
  else if b = Config.crcReq then t.crcRequested ch
  else if b = Config.nak then t.naked ch
  else t

/-- No response will come: best-effort completion where EOT was already sent, else failure (R145, R156, log 16). -/
def Sender.noResponse (t : Sender) (e : HostError) : Sender :=
  { t with phase := if t.eotSent then .done else .aborted e }

/-- The sender's reaction to what its bounded wait answers. In `INIT` it does not wait on the channel and reads nothing:
`Sender.begin` comes first (log 18). -/
def Sender.react (ch : HostChoices) (t : Sender) (e : ChannelEvent) : Sender :=
  match t.phase, e with
  | .init, _ | .done, _ | .aborted _, _ => t
  | .negotiating, .byte b | .transferring, .byte b | .eotPending, .byte b => t.responseByte ch b
  | .negotiating, .timeout | .transferring, .timeout | .eotPending, .timeout => t.noResponse .timeoutExceeded
  | .negotiating, .ended | .transferring, .ended | .eotPending, .ended => t.noResponse .unexpectedEndOfChannel

end Sys2Proof.Machine
end

