-- ==== Sys2Proof/Machine/Transfer.lean ====
section
/-! DEFINITION. A sender and a receiver, each with a block of its own (R189), joined by a channel that loses and changes
nothing (R128, R130, R159). -/

namespace Sys2Proof.Machine

/-- The two engines and how far each has read what the other wrote. -/
structure Transfer where
  /-- the sending end -/
  sender : Sender
  /-- the receiving end -/
  receiver : Receiver
  /-- bytes of the receiver that the sender has read -/
  senderRead : Nat
  /-- bytes of the sender that the receiver has read -/
  receiverRead : Nat
  deriving DecidableEq, Repr

/-- Both ends at their creation. -/
def Transfer.start (c : HostConfig) (source : List Byte) : Transfer where
  sender := Sender.start c source
  receiver := Receiver.start c
  senderRead := 0
  receiverRead := 0

/-- A sender that has yet to begin begins. Then the channel delivers the next byte in order, the sender's first; where none is in flight the receiver's bounded wait
expires. Each byte reaches the other end once, in order. DESIGN CHOICE (log 17): this schedule. -/
def Transfer.turn (c : HostConfig) (ch : HostChoices) (x : Transfer) : Transfer :=
  if x.sender.phase = .init then { x with sender := x.sender.begin }
  else match x.sender.sent[x.receiverRead]?, x.receiver.sent[x.senderRead]? with
  | some b, _ => { x with receiver := x.receiver.react c ch (.byte b), receiverRead := x.receiverRead + 1 }
  | none, some b => { x with sender := x.sender.react ch (.byte b), senderRead := x.senderRead + 1 }
  | none, none => { x with receiver := x.receiver.react c ch .timeout }

/-- `n` turns. -/
def Transfer.run (c : HostConfig) (ch : HostChoices) : Nat → Transfer → Transfer
  | 0, x => x
  | n + 1, x => Transfer.run c ch n (x.turn c ch)

end Sys2Proof.Machine
end

