-- ==== Sys2Proof/Safety.lean ====
section
/-! DEFINITION. The terms in which statements speak of states: the canonical form of the buffers, the observability
invariant (R27), what of a state can be observed (R26, R27), and the fault record (R19). -/

namespace Sys2Proof.Machine

/-- The state of a step's or a command's answer, if it is a next state. -/
def nextOf : Host.Outcome State Fault Refusal → Option State
  | .next s => some s
  | .fault _ => none
  | .refused _ => none

/-- Both buffers are in canonical form (R30, R31). -/
abbrev State.MemoriesWf (s : State) : Prop :=
  Memory.wf (bufferSize .payload) s.pbuf = true ∧ Memory.wf (bufferSize .frame) s.fbuf = true

/-- Every valid index of a buffer has been written (R27). -/
abbrev State.ValidWritten (s : State) (b : Buffer) : Prop :=
  ∀ i < validCount b (s.count b), ((s.cells b).read? i).isSome = true

/-- The observability invariant of the buffers (R27) with their canonical form. -/
abbrev State.Inv (s : State) : Prop :=
  s.MemoriesWf ∧ s.ValidWritten .payload ∧ s.ValidWritten .frame

/-- The valid bytes of a buffer, all that the host can observe of it (R27). -/
def State.validBytes (s : State) (b : Buffer) : List Byte := s.bytesFrom b 0 (validCount b (s.count b))

/-- Two states agree on the ten items of spec/10_state.md section 1, the buffers on their valid bytes only (R26). -/
structure State.Alike (s t : State) : Prop where
  /-- `SUM` -/
  sum : s.sum = t.sum
  /-- `CRC` -/
  crc : s.crc = t.crc
  /-- `MODE` -/
  mode : s.mode = t.mode
  /-- `PBUF` on its valid indices -/
  pbuf : s.validBytes .payload = t.validBytes .payload
  /-- `PLEN` -/
  plen : s.plen = t.plen
  /-- `FBUF` on its valid indices -/
  fbuf : s.validBytes .frame = t.validBytes .frame
  /-- `FLEN` -/
  flen : s.flen = t.flen
  /-- `RSEQ` -/
  rseq : s.rseq = t.rseq
  /-- `STAT` -/
  stat : s.stat = t.stat
  /-- `ERR` -/
  err : s.err = t.err

/-- No fault is recorded since reset (R19). -/
abbrev State.NoFaultRecorded (s : State) : Prop := s.err = 0

/-- A command without operand (R54): its word is `op << 8`, and with any other operand the word is illegal: one `ERR` bit
and the response, nothing else (R53, R172). -/
def TakesNoOperand (i : Instr) (op : Byte) : Prop :=
  encode i = op ++ 0#8 ∧ decode (op ++ 0#8) = .command i ∧
    ∀ imm : Byte, imm ≠ 0 → ∀ s : State,
      runWord (op ++ imm) s = .next { s with err := s.err ||| 0b1000, response := some (.fault .illegalCommand) }

/-- A command whose operand is any byte (R54): its word is `op << 8 | imm` (R50, R57). -/
def TakesAnyByte (i : Byte → Instr) (op : Byte) : Prop :=
  ∀ imm : Byte, encode (i imm) = op ++ imm ∧ decode (op ++ imm) = .command (i imm)

/-- A word is legal, said on its two bytes as R53 and R54 do. -/
def LegalWord (op imm : Byte) : Prop :=
  op ∈ [0x11#8, 0x21#8, 0x31#8, 0x33#8, 0x41#8, 0x44#8, 0x45#8] ∨
    (op ∈ [0x10#8, 0x12#8, 0x13#8, 0x20#8, 0x22#8, 0x23#8, 0x30#8, 0x32#8, 0x34#8, 0x35#8] ∧ imm = 0) ∨
    (op ∈ [0x42#8, 0x43#8, 0x46#8, 0x47#8, 0x48#8, 0x49#8, 0x50#8] ∧ imm = 0) ∨
    (op = 0x40#8 ∧ imm.toNat ≤ 1)

/-- `n` steps of the block. -/
def runSteps : Nat → State → Option State
  | 0, s => some s
  | n + 1, s => (nextOf (step s)).bind (runSteps n)

end Sys2Proof.Machine
end

