-- ==== Sys2Proof/Certificates/Slice0/Obligations.lean ====
section
/-! DEFINITION. The statements for the provers, each with the rule of spec/ it formalises. They hold in every state, also in
states that no run reaches, unless a premise says otherwise. -/

open Sys2Proof Sys2Proof.Machine

/-! ## Reset and the step -/

/-- R25 and R195: the values after reset, in the reset state and after the reset event from any state; no byte of a buffer
is valid. The model's choices: no byte is listed as written (log 1), the response field is cleared (log 2), and the host's
remaining inputs stay (log 3). -/
def Obligations.ResetLeavesTheStatedValues : Prop :=
  (∀ s : State, (s = State.reset ∨ ∃ (r : State) (rest : List HostInput), r.pending = .reset :: rest ∧ step r = .next s) →
    s.sum = 0x00 ∧ s.crc = 0x0000 ∧ s.mode = .checksum ∧ s.plen = 0 ∧ s.flen = 0 ∧ s.rseq = 0x00 ∧ s.stat = 0b000 ∧
    s.err = 0b0000 ∧ s.response = none ∧ s.validBytes .payload = [] ∧ s.validBytes .frame = [] ∧
    (∀ a, s.pbuf.read? a = none ∧ s.fbuf.read? a = none)) ∧
  ∀ (r : State) (rest : List HostInput), r.pending = .reset :: rest → ∃ s, step r = .next s ∧ s.pending = rest

/-- The invariant of `InvariantKeptByEveryStep` holds at reset. -/
def Obligations.InvariantHoldsAtReset : Prop := State.reset.Inv

/-- The step runs the decoded command, an illegal word raises IllegalCommand, and without an input the block waits (the
last clause is the model's choice, log 4). -/
def Obligations.StepRunsTheDecodedCommand : Prop :=
  (∀ (s : State) (w : Word) (rest : List HostInput) (i : Instr), s.pending = .command w :: rest →
    decode w = .command i → step s = exec i { s with pending := rest }) ∧
  (∀ (s : State) (w : Word) (rest : List HostInput) (why : DecodeReject), s.pending = .command w :: rest →
    decode w = .reject why →
    step s = .next { s with pending := rest, err := s.err ||| 0b1000, response := some (.fault .illegalCommand) }) ∧
  ∀ s : State, s.pending = [] → step s = .next s

/-- No step stops, and a step that takes a command gives exactly one response to it, `ok` or a fault of a code 1 to 4
(R51; "Nothing in the block is stuck", 93_implementation_defined.md). -/
def Obligations.EveryInputIsAnswered : Prop :=
  ∀ s : State, ∃ t, step s = .next t ∧
    ∀ (w : Word) (rest : List HostInput), s.pending = .command w :: rest →
      t.pending = rest ∧
        ((∃ d, t.response = some (.ok d)) ∨ ∃ f : BlockFault, t.response = some (.fault f) ∧ 1 ≤ f.code ∧ f.code ≤ 4)

/-! ## Encoding -/

/-- Words written out from R52, at least one of every unit, decode to the commands they stand for; and the refusals that
spec/95_test_vectors.md names. -/
def Obligations.WrittenOutWordsDecode : Prop :=
  decode 0x1000 = .command .sumclr ∧ decode 0x11FF = .command (.sumadd 0xFF) ∧ decode 0x1300 = .command .bsum ∧
  decode 0x2131 = .command (.crcupd 0x31) ∧ decode 0x2300 = .command .bcrc ∧ decode 0x3148 = .command (.pwr 0x48) ∧
  decode 0x337F = .command (.prd 0x7F) ∧ decode 0x4001 = .command (.setmode 1) ∧ decode 0x4180 = .command (.pack 0x80) ∧
  decode 0x4200 = .command .unpack ∧ decode 0x4584 = .command (.frd 0x84) ∧ decode 0x5000 = .command .errrd ∧
  decode 0x0000 = .reject .unassignedOpcode ∧ decode 0xFFFF = .reject .unassignedOpcode ∧
  decode 0x1301 = .reject .operandNotZero ∧ decode 0x4002 = .reject .modeAboveOne

/-- R50, R52, R54: for every well-formed command, with every operand, decoding its word gives the command back. -/
def Obligations.DecodeOfEncode : Prop := ∀ i : Instr, i.wellFormed = true → decode (encode i) = .command i

/-- The other direction: a word that decodes is the word of the command it decodes to, which is well-formed. -/
def Obligations.EncodeOfDecode : Prop :=
  ∀ (w : Word) (i : Instr), decode w = .command i → encode i = w ∧ i.wellFormed = true

/-- R53 and R54: exactly the legal words are commands; every other word raises IllegalCommand and changes nothing else. -/
def Obligations.LegalWordsAreTheCommands : Prop :=
  ∀ (op imm : Byte) (s : State),
    (LegalWord op imm → ∃ i, decode (op ++ imm) = .command i ∧ runWord (op ++ imm) s = exec i s) ∧
    (¬ LegalWord op imm →
      runWord (op ++ imm) s = .next { s with err := s.err ||| 0b1000, response := some (.fault .illegalCommand) })

/-- R52: the rows of the opcode map and the decoder agree on every word: a row covers a word exactly where the word decodes
to a command of that row, and no word is covered by two rows. -/
def Obligations.OpcodeMapAgreesWithDecode : Prop :=
  ∀ w : Word,
    (∀ r ∈ opcodeMap, (r.covers w = true ↔ ∃ i, decode w = .command i ∧ i.row = r)) ∧
    (∀ i, decode w = .command i → i.row ∈ opcodeMap) ∧
    ∀ r ∈ opcodeMap, ∀ q ∈ opcodeMap, r.covers w = true → q.covers w = true → r = q

/-- R57: a mnemonic with its operand, where it has one, assembles to `op << 8 | imm`, the word of the command; the
pseudo-instructions expand as R58 says. -/
def Obligations.AssemblerEncodesCommands : Prop :=
  (∀ i : Instr, assembleWord i.row.mnemonic (if i.row.mask = 0xFFFF then none else some i.operand) = some (encode i)) ∧
  ∀ p : List Byte,
    (Pseudo.pload p).expand.map encode = 0x3000#16 :: p.map (fun b => 0x3100#16 + zext16 b) ∧
    (Pseudo.ploadpad p).expand.map encode = 0x3000#16 :: p.map (fun b => 0x3100#16 + zext16 b) ++ [0x3200#16] ∧
    (Pseudo.fload p).expand.map encode = 0x4300#16 :: p.map (fun b => 0x4400#16 + zext16 b) ∧
    Pseudo.modeSum.expand.map encode = [0x4000#16] ∧ Pseudo.modeCrc.expand.map encode = [0x4001#16]

/-! ## Read commands and clear commands -/

/-- R69, R82, R94, R101, R107, R109, R110, R120: each read command responds with its register zero-extended to 16 bits and
changes nothing; each takes no operand. -/
def Obligations.ReadCommandsRespondTheirRegister : Prop :=
  (∀ s : State,
    exec .sumrd s = .next { s with response := some (.ok (BitVec.ofNat 16 s.sum.toNat)) } ∧
    exec .crcrd s = .next { s with response := some (.ok s.crc) } ∧
    exec .plenrd s = .next { s with response := some (.ok (BitVec.ofNat 16 s.plen.toNat)) } ∧
    exec .flenrd s = .next { s with response := some (.ok (BitVec.ofNat 16 s.flen.toNat)) } ∧
    exec .seqrd s = .next { s with response := some (.ok (BitVec.ofNat 16 s.rseq.toNat)) } ∧
    exec .statrd s = .next { s with response := some (.ok (BitVec.ofNat 16 s.stat.toNat)) } ∧
    exec .moderd s = .next { s with response := some (.ok (if s.mode = .crc then 0x0001 else 0x0000)) } ∧
    exec .errrd s = .next { s with response := some (.ok (BitVec.ofNat 16 s.err.toNat)) }) ∧
  TakesNoOperand .sumrd 0x12 ∧ TakesNoOperand .crcrd 0x22 ∧ TakesNoOperand .plenrd 0x34 ∧ TakesNoOperand .flenrd 0x46 ∧
  TakesNoOperand .seqrd 0x47 ∧ TakesNoOperand .statrd 0x48 ∧ TakesNoOperand .moderd 0x49 ∧ TakesNoOperand .errrd 0x50

/-- R67, R80, R104, and PCLR of R90: a clear command clears its register and changes nothing else; the bytes of the buffers
are not erased, and after PCLR or FCLR none is valid. (R90 is not cited: its sentence that PCLR is the only way to bring
PLEN down does not count UNPACK, which R108 lets set PLEN to 128, log 12.) -/
def Obligations.ClearCommandsClear : Prop :=
  (∀ s : State,
    exec .sumclr s = .next { s with sum := 0x00, response := some (.ok 0) } ∧
    exec .crcclr s = .next { s with crc := 0x0000, response := some (.ok 0) } ∧
    exec .pclr s = .next { s with plen := 0, response := some (.ok 0) } ∧
    exec .fclr s = .next { s with flen := 0, response := some (.ok 0) }) ∧
  (∀ (s t : State) (imm : Byte), exec .pclr s = .next t →
    exec (.prd imm) t = .next { t with err := t.err ||| 0b0100, response := some (.fault .indexOutOfRange) }) ∧
  (∀ (s t : State) (imm : Byte), exec .fclr s = .next t →
    exec (.frd imm) t = .next { t with err := t.err ||| 0b0100, response := some (.fault .indexOutOfRange) }) ∧
  TakesNoOperand .sumclr 0x10 ∧ TakesNoOperand .crcclr 0x20 ∧ TakesNoOperand .pclr 0x30 ∧ TakesNoOperand .fclr 0x43

/-! ## The checksum accumulator -/

/-- R68: SUMADD adds its operand modulo 256 and changes nothing else; 256 additions of the same byte return SUM to its
starting value. -/
def Obligations.SumaddAddsModulo256 : Prop :=
  (∀ (s : State) (imm : Byte), ∃ v : Byte, v.toNat = (s.sum.toNat + imm.toNat) % 256 ∧
    exec (.sumadd imm) s = .next { s with sum := v, response := some (.ok 0) }) ∧
  (∀ (s : State) (imm : Byte), (issueAll (List.replicate 256 (.sumadd imm)) s).sum = s.sum) ∧
  TakesAnyByte .sumadd 0x11

/-- R66: the checksum is the fold of `sum_step` from 0, and it is the sum of the bytes modulo 256; with the two examples of
the rule. -/
def Obligations.ChecksumIsTheSum : Prop :=
  (∀ p : List Byte, (checksum p).toNat = (p.map BitVec.toNat).sum % 256) ∧ checksum [] = 0x00 ∧
  (∀ (p : List Byte) (b : Byte), checksum (p ++ [b]) = sumStep (checksum p) b) ∧
  (∀ a b : Byte, (sumStep a b).toNat = (a.toNat + b.toNat) % 256) ∧
  checksum (List.replicate 128 0x00) = 0 ∧ checksum (List.replicate 128 0x01) = 128

/-- The laws that R71 derives from R65 and R66: concatenation, order, 128 equal bytes, one changed byte is seen, and two
changes that cancel are not. -/
def Obligations.ChecksumLaws : Prop :=
  (∀ a b : List Byte, checksum (a ++ b) = sumStep (checksum a) (checksum b)) ∧
  (∀ a b : List Byte, a.Perm b → checksum a = checksum b) ∧
  (∀ b : Byte, (checksum (List.replicate 128 b)).toNat = 128 * b.toNat % 256 ∧
    checksum (List.replicate 128 b) = if b.toNat % 2 = 0 then 0x00 else 0x80) ∧
  (∀ (a : List Byte) (i : Nat) (hi : i < a.length) (d : Byte), checksum (a.set i (a[i] + d)) = checksum a + d ∧
    (d ≠ 0 → checksum (a.set i (a[i] + d)) ≠ checksum a)) ∧
  (∀ (a : List Byte) (i j : Nat) (hi : i < a.length) (hj : j < a.length) (d : Byte), i ≠ j →
    checksum ((a.set i (a[i] + d)).set j (a[j] - d)) = checksum a)

/-- R70: BSUM needs PLEN = 128, leaves the sum of the 128 payload bytes modulo 256 in SUM and in the response, the same as
SUMCLR and 128 SUMADDs, and changes nothing else; else it raises InvalidBlockSize. -/
def Obligations.BsumSumsThePayload : Prop :=
  (∀ s : State, s.plen = 128 → ∃ v : Byte,
    v.toNat = (((List.range 128).map fun i => (s.byteAt .payload i).toNat).sum) % 256 ∧
    v = (issueAll (.sumclr :: s.payload.map .sumadd) s).sum ∧
    exec .bsum s = .next { s with sum := v, response := some (.ok (BitVec.ofNat 16 v.toNat)) }) ∧
  (∀ s : State, s.plen ≠ 128 →
    exec .bsum s = .next { s with err := s.err ||| 0b0001, response := some (.fault .invalidBlockSize) }) ∧
  TakesNoOperand .bsum 0x13

/-! ## The CRC generator -/

/-- R81 with R76: CRCUPD shifts the CRC left by eight and combines it with the entry of the LISTING of R75 that the high
byte exclusive-or the operand selects; nothing else changes. -/
def Obligations.CrcupdFollowsTheListedTable : Prop :=
  (∀ (s : State) (imm : Byte),
    exec (.crcupd imm) s = .next { s with
      crc := (s.crc <<< 8) ^^^ crcTableListing.getD ((s.crc.toNat / 256) ^^^ imm.toNat) 0
      response := some (.ok 0) }) ∧
  TakesAnyByte .crcupd 0x21

/-- R78: the bit-serial form and the table-driven form of one step are equal for all arguments. -/
def Obligations.BitSerialStepEqualsTableStep : Prop := ∀ (c : Word) (b : Byte), crcStepBits c b = crcStep c b

/-- The laws that R79 (a) to (e) derives from R75 to R77: linearity, leading zeros, the residue (with the verdict of a receiver that tests for zero), the check
value, and that a single-bit error changes the CRC. -/
def Obligations.CrcLaws : Prop :=
  (∀ a b : List Byte, a.length = b.length → crc16 (List.zipWith (· ^^^ ·) a b) = crc16 a ^^^ crc16 b) ∧
  (∀ n : Nat, crc16 (List.replicate n 0x00) = 0x0000) ∧
  (∀ p : List Byte, crc16 (0x00 :: p) = crc16 p) ∧
  (∀ (p : List Byte) (v : Word), crc16 (p ++ [highByte v, lowByte v]) = 0x0000 ↔ v = crc16 p) ∧
  crc16 [0x31, 0x32, 0x33, 0x34, 0x35, 0x36, 0x37, 0x38, 0x39] = 0x31C3 ∧
  (∀ (p : List Byte) (i : Nat) (hi : i < p.length) (k : Nat), k < 8 →
    crc16 (p.set i (p[i] ^^^ (1#8 <<< k))) ≠ crc16 p)

/-- R83: BCRC needs PLEN = 128, leaves in CRC and in the response the CRC of the 128 payload bytes from 0x0000, index 0
first, the same as CRCCLR and 128 CRCUPDs, and changes nothing else; else it raises InvalidBlockSize. -/
def Obligations.BcrcRunsOverThePayload : Prop :=
  (∀ s : State, s.plen = 128 → ∃ v : Word,
    v = ((List.range 128).map fun i => s.byteAt .payload i).foldl crcStep 0x0000 ∧
    v = (issueAll (.crcclr :: s.payload.map .crcupd) s).crc ∧
    exec .bcrc s = .next { s with crc := v, response := some (.ok v) }) ∧
  (∀ s : State, s.plen ≠ 128 →
    exec .bcrc s = .next { s with err := s.err ||| 0b0001, response := some (.fault .invalidBlockSize) }) ∧
  TakesNoOperand .bcrc 0x23

/-! ## The buffers -/

/-- R105 for FWR, and the same of R91 for PWR: the byte is stored at the fill count where the buffer has room, no other
cell changes, the count goes up by one and sticks at 255, and nothing else changes. (R91 is not cited: it says that the
whole-buffer commands fail until PCLR, and UNPACK ends that too, log 12.) -/
def Obligations.AppendCommandsAppend : Prop :=
  (∀ (s : State) (imm : Byte), ∃ t, exec (.pwr imm) s = .next t ∧
    t = { s with pbuf := t.pbuf, plen := t.plen, response := some (.ok 0) } ∧
    t.plen.toNat = min (s.plen.toNat + 1) 255 ∧
    ∀ a, t.pbuf.read? a = if s.plen.toNat < 128 ∧ a = s.plen.toNat then some imm else s.pbuf.read? a) ∧
  (∀ (s : State) (imm : Byte), ∃ t, exec (.fwr imm) s = .next t ∧
    t = { s with fbuf := t.fbuf, flen := t.flen, response := some (.ok 0) } ∧
    t.flen.toNat = min (s.flen.toNat + 1) 255 ∧
    ∀ a, t.fbuf.read? a = if s.flen.toNat < 133 ∧ a = s.flen.toNat then some imm else s.fbuf.read? a) ∧
  TakesAnyByte .pwr 0x31 ∧ TakesAnyByte .fwr 0x44

/-- R92: PPAD fills PLEN, …, 127 with 0x1A and sets PLEN to 128 where PLEN is below 128; else nothing changes. -/
def Obligations.PpadFillsWithTheFiller : Prop :=
  (∀ s : State, s.plen.toNat < 128 → ∃ t, exec .ppad s = .next t ∧
    t = { s with pbuf := t.pbuf, plen := 128, response := some (.ok 0) } ∧
    ∀ a, t.pbuf.read? a = if s.plen.toNat ≤ a ∧ a < 128 then some 0x1A else s.pbuf.read? a) ∧
  (∀ s : State, 128 ≤ s.plen.toNat → exec .ppad s = .next { s with response := some (.ok 0) }) ∧
  TakesNoOperand .ppad 0x32

/-- R93 and R106: an indexed read below the number of valid bytes responds with the byte and changes nothing; at or above it
raises IndexOutOfRange. -/
def Obligations.IndexedReadsReadValidBytes : Prop :=
  (∀ (s : State) (imm : Byte), imm.toNat < min s.plen.toNat 128 → ∃ v : Byte,
    exec (.prd imm) s = .next { s with response := some (.ok (BitVec.ofNat 16 v.toNat)) } ∧
    ∀ b, s.pbuf.read? imm.toNat = some b → v = b) ∧
  (∀ (s : State) (imm : Byte), min s.plen.toNat 128 ≤ imm.toNat →
    exec (.prd imm) s = .next { s with err := s.err ||| 0b0100, response := some (.fault .indexOutOfRange) }) ∧
  (∀ (s : State) (imm : Byte), imm.toNat < min s.flen.toNat 133 → ∃ v : Byte,
    exec (.frd imm) s = .next { s with response := some (.ok (BitVec.ofNat 16 v.toNat)) } ∧
    ∀ b, s.fbuf.read? imm.toNat = some b → v = b) ∧
  (∀ (s : State) (imm : Byte), min s.flen.toNat 133 ≤ imm.toNat →
    exec (.frd imm) s = .next { s with err := s.err ||| 0b0100, response := some (.fault .indexOutOfRange) }) ∧
  TakesAnyByte .prd 0x33 ∧ TakesAnyByte .frd 0x45

/-- R95 and R96: PTRIM needs PLEN = 128 and responds with the largest n in 0..128 such that n = 0 or byte n-1 is not 0x1A;
it changes nothing. -/
def Obligations.PtrimCountsOffTrailingFiller : Prop :=
  (∀ s : State, s.plen = 128 → ∃ n : Nat, n ≤ 128 ∧
    exec .ptrim s = .next { s with response := some (.ok (BitVec.ofNat 16 n)) } ∧
    (n = 0 ∨ s.byteAt .payload (n - 1) ≠ 0x1A) ∧
    ∀ m, m ≤ 128 → (m = 0 ∨ s.byteAt .payload (m - 1) ≠ 0x1A) → m ≤ n) ∧
  (∀ s : State, s.plen ≠ 128 →
    exec .ptrim s = .next { s with err := s.err ||| 0b0001, response := some (.fault .invalidBlockSize) }) ∧
  TakesNoOperand .ptrim 0x35

/-- What R97 derives from R91, R92 and R95: after PLOADPAD S (at most 128 bytes), PTRIM responds with the length of S less its trailing run of 0x1A, all of
it where S does not end in 0x1A, and PRD returns S. -/
def Obligations.PadThenTrimGivesTheLength : Prop :=
  (∀ (s : State) (p : List Byte), p.length ≤ 128 → p.getLast? ≠ some 0x1A →
    (issue .ptrim (issueAll (Pseudo.ploadpad p).expand s)).response = some (.ok (BitVec.ofNat 16 p.length)) ∧
    (readOut .prd 0 p.length (issue .ptrim (issueAll (Pseudo.ploadpad p).expand s))).2 = p) ∧
  ∀ (s : State) (p : List Byte) (j : Nat), p.length + j ≤ 128 → p.getLast? ≠ some 0x1A →
    (issue .ptrim (issueAll (Pseudo.ploadpad (p ++ List.replicate j 0x1A)).expand s)).response =
      some (.ok (BitVec.ofNat 16 p.length))

/-- R14 and R16: what every command does to the two fill counts. -/
def Obligations.FillCountsFollowTheirWriters : Prop :=
  ∀ (i : Instr) (s t : State), exec i s = .next t →
    (t.plen.toNat =
      if i = .pclr then 0
      else if ∃ b, i = .pwr b then min (s.plen.toNat + 1) 255
      else if i = .ppad then max s.plen.toNat 128
      else if i = .unpack ∧ s.flen.toNat = frameLen s.mode then 128
      else s.plen.toNat) ∧
    (t.flen.toNat =
      if i = .fclr then 0
      else if ∃ b, i = .fwr b then min (s.flen.toNat + 1) 255
      else if (∃ q, i = .pack q) ∧ s.plen = 128 then frameLen s.mode
      else s.flen.toNat)

/-! ## The framer -/

/-- R100: SETMODE with 0 or 1 sets the mode and changes nothing else; with any other operand it is an IllegalCommand, as a
word and as a command. -/
def Obligations.SetmodeSelectsTheMode : Prop :=
  (∀ s : State, exec (.setmode 0) s = .next { s with mode := .checksum, response := some (.ok 0) } ∧
    exec (.setmode 1) s = .next { s with mode := .crc, response := some (.ok 0) } ∧
    runWord 0x4000 s = exec (.setmode 0) s ∧ runWord 0x4001 s = exec (.setmode 1) s) ∧
  ∀ (s : State) (imm : Byte), 1 < imm.toNat →
    exec (.setmode imm) s = .next { s with err := s.err ||| 0b1000, response := some (.fault .illegalCommand) } ∧
    runWord (0x40#8 ++ imm) s = exec (.setmode imm) s

/-- R48: the five forms of the sequence-check condition are the same, and the pair test is it. -/
def Obligations.SequenceCheckForms : Prop :=
  ∀ q k : Byte,
    (pairOk q k = true ↔ q.toNat + k.toNat = 255) ∧ (k = 0xFF - q ↔ q.toNat + k.toNat = 255) ∧
    (k = ~~~q ↔ q.toNat + k.toNat = 255) ∧ ((q.toNat + k.toNat) % 256 = 255 ↔ q.toNat + k.toNat = 255) ∧
    (q ^^^ k = 0xFF ↔ q.toNat + k.toNat = 255)

/-- R103 with the layout of R46 and R47: PACK needs PLEN = 128; it writes the frame from index 0, sets FLEN and the selected
accumulator, and changes nothing else: not the other accumulator, not a cell past the frame. -/
def Obligations.PackBuildsTheFrame : Prop :=
  (∀ (s : State) (q : Byte), s.plen = 128 → ∃ t, exec (.pack q) s = .next t ∧
    t = { s with sum := t.sum, crc := t.crc, fbuf := t.fbuf, flen := t.flen,
                 response := some (.ok (BitVec.ofNat 16 t.flen.toNat)) } ∧
    t.fbuf.read? 0 = some 0x01 ∧ t.fbuf.read? 1 = some q ∧ t.fbuf.read? 2 = some (0xFF - q) ∧
    (∀ i, i < 128 → t.fbuf.read? (3 + i) = some (s.byteAt .payload i)) ∧
    (s.mode = .checksum → t.flen = 132 ∧ t.sum = checksum s.payload ∧ t.crc = s.crc ∧ t.fbuf.read? 131 = some t.sum ∧
      ∀ a, 132 ≤ a → t.fbuf.read? a = s.fbuf.read? a) ∧
    (s.mode = .crc → t.flen = 133 ∧ t.crc = crc16 s.payload ∧ t.sum = s.sum ∧
      t.fbuf.read? 131 = some (BitVec.ofNat 8 (t.crc.toNat / 256)) ∧
      t.fbuf.read? 132 = some (BitVec.ofNat 8 (t.crc.toNat % 256)) ∧
      ∀ a, 133 ≤ a → t.fbuf.read? a = s.fbuf.read? a)) ∧
  (∀ (s : State) (q : Byte), s.plen ≠ 128 →
    exec (.pack q) s = .next { s with err := s.err ||| 0b0001, response := some (.fault .invalidBlockSize) }) ∧
  TakesAnyByte .pack 0x41

/-- R108: UNPACK needs FLEN = frame_len(MODE); it copies the payload, sets PLEN, RSEQ, the three independent bits of STAT and
the selected accumulator, responds with STAT, and changes nothing else; else it raises InvalidFrameSize. -/
def Obligations.UnpackParsesTheFrame : Prop :=
  (∀ s : State, s.flen.toNat = frameLen s.mode → ∃ t, exec .unpack s = .next t ∧
    t = { s with sum := t.sum, crc := t.crc, pbuf := t.pbuf, plen := 128, rseq := s.byteAt .frame 1, stat := t.stat,
                 response := some (.ok (BitVec.ofNat 16 t.stat.toNat)) } ∧
    (∀ i, i < 128 → t.pbuf.read? i = some (s.byteAt .frame (3 + i))) ∧
    (∀ a, 128 ≤ a → t.pbuf.read? a = s.pbuf.read? a) ∧
    (t.stat.getLsbD 2 = true ↔ s.byteAt .frame 0 = 0x01) ∧
    (t.stat.getLsbD 1 = true ↔ (s.byteAt .frame 1).toNat + (s.byteAt .frame 2).toNat = 0xFF) ∧
    (s.mode = .checksum → t.sum = checksum ((List.range 128).map fun i => s.byteAt .frame (3 + i)) ∧ t.crc = s.crc ∧
      (t.stat.getLsbD 0 = true ↔ t.sum = s.byteAt .frame 131)) ∧
    (s.mode = .crc → t.crc = crc16 ((List.range 128).map fun i => s.byteAt .frame (3 + i)) ∧ t.sum = s.sum ∧
      (t.stat.getLsbD 0 = true ↔
        t.crc.toNat = 256 * (s.byteAt .frame 131).toNat + (s.byteAt .frame 132).toNat))) ∧
  (∀ s : State, s.flen.toNat ≠ frameLen s.mode →
    exec .unpack s = .next { s with err := s.err ||| 0b0010, response := some (.fault .invalidFrameSize) }) ∧
  TakesNoOperand .unpack 0x42

/-- What R111 derives from R102, R103 and R108: PACK then UNPACK gives STAT = 7, the sequence byte, the payload and its validator, in either mode; and the same
where the frame is read out with FRD and loaded with FCLR and FWR into any other instance in the same mode. -/
def Obligations.PackThenUnpackRoundTrips : Prop :=
  ∀ (s : State) (q : Byte), s.plen = 128 → ∃ t u, exec (.pack q) s = .next t ∧
    t.response = some (.ok (BitVec.ofNat 16 (frameLen s.mode))) ∧ exec .unpack t = .next u ∧
    u.response = some (.ok 0x0007) ∧ u.rseq = q ∧ u.payload = s.payload ∧ u.plen = 128 ∧
    (s.mode = .checksum → u.sum = checksum s.payload) ∧ (s.mode = .crc → u.crc = crc16 s.payload) ∧
    ∀ r : State, r.mode = s.mode → ∃ v,
      exec .unpack (issueAll (.fclr :: (readOut .frd 0 (frameLen s.mode) t).2.map .fwr) r) = .next v ∧
      v.response = some (.ok 0x0007) ∧ v.rseq = q ∧ v.payload = s.payload ∧ v.plen = 128 ∧
      (s.mode = .checksum → v.sum = checksum s.payload) ∧ (s.mode = .crc → v.crc = crc16 s.payload)

/-- A frame packed in one mode and unpacked in the other faults on its length (R112, the part about the block). -/
def Obligations.ModeMismatchFaultsOnLength : Prop :=
  ∀ (s t u : State) (q m : Byte), s.plen = 128 → m.toNat ≤ 1 → Mode.ofOperand m ≠ s.mode →
    exec (.pack q) s = .next t → exec (.setmode m) t = .next u →
    exec .unpack u = .next { u with err := u.err ||| 0b0010, response := some (.fault .invalidFrameSize) }

/-! ## Faults -/

/-- R172: a command that responds with a fault of code k sets bit k-1 of ERR and changes nothing else. -/
def Obligations.FaultsChangeOneErrBitOnly : Prop :=
  ∀ (w : Word) (s t : State) (f : BlockFault), runWord w s = .next t → t.response = some (.fault f) →
    t = { s with err := s.err ||| (1#4 <<< (f.code - 1)), response := some (.fault f) }

/-- R54 and the priority of R173: which word raises which fault, exactly, and a fault sets its own `ERR` bit only. (It is the
table that R174 derives from the rules of the commands, over the faults of R170.) -/
def Obligations.FaultTable : Prop :=
  ∀ (op imm : Byte) (s : State), ∃ t, runWord (op ++ imm) s = .next t ∧
    (t.response = some (.fault .illegalCommand) ↔ ¬ LegalWord op imm) ∧
    (t.response = some (.fault .indexOutOfRange) ↔
      (op = 0x33 ∧ min s.plen.toNat 128 ≤ imm.toNat) ∨ (op = 0x45 ∧ min s.flen.toNat 133 ≤ imm.toNat)) ∧
    (t.response = some (.fault .invalidFrameSize) ↔
      op = 0x42 ∧ imm = 0 ∧ s.flen.toNat ≠ (if s.mode = .crc then 133 else 132)) ∧
    (t.response = some (.fault .invalidBlockSize) ↔
      ((op ∈ [0x13#8, 0x23#8, 0x35#8] ∧ imm = 0) ∨ op = 0x41) ∧ s.plen ≠ 128) ∧
    ∀ f : BlockFault, t.response = some (.fault f) → t.err = s.err ||| (1#4 <<< (f.code - 1))

/-- R19: bit `k-1` of ERR is set by the fault with code `k` and by nothing else, only the reset event clears a bit (all four),
and ERRRD reads the register. -/
def Obligations.ErrIsSticky : Prop :=
  BlockFault.code .invalidBlockSize = 1 ∧ BlockFault.code .invalidFrameSize = 2 ∧
  BlockFault.code .indexOutOfRange = 3 ∧ BlockFault.code .illegalCommand = 4 ∧
  (∀ (s t : State), step s = .next t → (∀ rest, s.pending ≠ .reset :: rest) →
    ∀ f : BlockFault, (t.err.getLsbD (f.code - 1) = true ↔
      s.err.getLsbD (f.code - 1) = true ∨
        ((∃ w rest, s.pending = .command w :: rest) ∧ t.response = some (.fault f)))) ∧
  (∀ (s : State) (rest : List HostInput), s.pending = .reset :: rest → ∃ t, step s = .next t ∧ t.err = 0b0000) ∧
  ∀ s : State, exec .errrd s = .next { s with response := some (.ok (BitVec.ofNat 16 s.err.toNat)) }

/-! ## The whole machine -/

/-- The access table of 10_state.md section 9, column "written by", for every command: a register or buffer changes only
through the commands listed for it; the host's inputs and the model's epoch are changed by none. -/
def Obligations.OnlyTheListedCommandsWrite : Prop :=
  ∀ (i : Instr) (s t : State), exec i s = .next t →
    (t.sum ≠ s.sum → i = .sumclr ∨ (∃ b, i = .sumadd b) ∨ i = .bsum ∨
      (((∃ q, i = .pack q) ∨ i = .unpack) ∧ s.mode = .checksum)) ∧
    (t.crc ≠ s.crc → i = .crcclr ∨ (∃ b, i = .crcupd b) ∨ i = .bcrc ∨
      (((∃ q, i = .pack q) ∨ i = .unpack) ∧ s.mode = .crc)) ∧
    (t.mode ≠ s.mode → ∃ m, i = .setmode m) ∧
    (t.pbuf ≠ s.pbuf → (∃ b, i = .pwr b) ∨ i = .ppad ∨ i = .unpack) ∧
    (t.plen ≠ s.plen → i = .pclr ∨ (∃ b, i = .pwr b) ∨ i = .ppad ∨ i = .unpack) ∧
    (t.fbuf ≠ s.fbuf → (∃ b, i = .fwr b) ∨ ∃ q, i = .pack q) ∧
    (t.flen ≠ s.flen → i = .fclr ∨ (∃ b, i = .fwr b) ∨ ∃ q, i = .pack q) ∧
    (t.rseq ≠ s.rseq ∨ t.stat ≠ s.stat → i = .unpack) ∧
    (t.err ≠ s.err → ∃ f, t.response = some (.fault f)) ∧
    t.pending = s.pending ∧ t.epoch = s.epoch

/-- What R37 derives from the rules of the commands: no read has a side effect (where PRD, FRD or PTRIM faults only ERR changes); the appending and folding commands
advance; and the named commands are idempotent. -/
def Obligations.ReadsAreFreeOfEffectAndWritesIdempotent : Prop :=
  (∀ (i : Instr) (s t : State),
    i ∈ [.sumrd, .crcrd, .plenrd, .flenrd, .seqrd, .statrd, .moderd, .errrd, .ptrim] ∨ (∃ n, i = .prd n) ∨ (∃ n, i = .frd n) →
    exec i s = .next t →
    (∃ d, t = { s with response := some (.ok d) } ∧ exec i t = .next t) ∨
      ∃ f, t = { s with err := s.err ||| f.bit, response := some (.fault f) }) ∧
  (∀ (s t : State) (b : Byte), (exec (.pwr b) s = .next t → s.plen.toNat < 255 → t.plen.toNat = s.plen.toNat + 1) ∧
    (exec (.fwr b) s = .next t → s.flen.toNat < 255 → t.flen.toNat = s.flen.toNat + 1) ∧
    (exec (.sumadd b) s = .next t → t.sum = sumStep s.sum b) ∧ (exec (.crcupd b) s = .next t → t.crc = crcStep s.crc b)) ∧
  ∀ (i : Instr) (s t : State),
    i ∈ [.pclr, .fclr, .sumclr, .crcclr, .ppad, .bsum, .bcrc, .unpack] ∨ (∃ m, i = .setmode m) ∨ (∃ q, i = .pack q) →
    exec i s = .next t → exec i t = .next t

/-- Every step keeps the canonical form of the buffers and the observability invariant: every valid index holds a byte
that some command wrote since reset (the part of R27 that the state shows). -/
def Obligations.InvariantKeptByEveryStep : Prop := ∀ s t : State, s.Inv → step s = .next t → t.Inv

/-- What R26 derives from R2 and R27: two states that agree on the ten items, on the buffers in their valid indices only, respond alike to every sequence
of inputs and stay alike; so no unspecified byte, and no value of the free constant, is ever seen. -/
def Obligations.AlikeStatesRespondAlike : Prop :=
  ∀ (n : Nat) (s t : State), s.Alike t → s.pending = t.pending → s.response = t.response →
    ∃ s' t', runSteps n s = some s' ∧ runSteps n t = some t' ∧ s'.Alike t' ∧ s'.pending = t'.pending ∧
      s'.response = t'.response

/-! ## The host beside the block -/

/-- R134 and R150: noise. A receiver that awaits a command byte ignores every byte but SOH and EOT; a sender ignores every
byte but ACK, NAK and the CRC request. -/
def Obligations.NoiseIsIgnored : Prop :=
  (∀ (c : HostConfig) (ch : HostChoices) (r : Receiver) (b : Byte), r.phase = .transferring → r.partialFrame = [] →
    b ≠ 0x01 → b ≠ 0x04 → r.react c ch (.byte b) = r) ∧
  ∀ (ch : HostChoices) (t : Sender) (b : Byte), b ≠ 0x06 → b ≠ 0x15 → b ≠ 0x43 → t.react ch (.byte b) = t

/-- The sequence test and what follows from it as soon as the check byte is read (R136, R137): outside the window the
transfer aborts with SyncError, whether or not the pair is valid, and the sink is untouched; inside it an invalid pair is a
block-level error, at once or after the rest has been read (N10 leaves that open, both are stated, log 7); a new block
flushes the held-back payload; a duplicate flushes nothing. The model's choices: the kind checksumExceeded where this error
crosses the ceiling (log 8), and that a flushed payload stays held, marked so that it is not flushed again (log 9). -/
def Obligations.ReceiverTestsTheSequence : Prop :=
  ∀ (c : HostConfig) (ch : HostChoices) (r : Receiver) (q k : Byte), r.phase = .transferring →
    r.partialFrame = [0x01, q] →
    (q ≠ r.expected ∧ q.toNat ≠ (r.expected.toNat + 255) % 256 →
      (r.react c ch (.byte k)).phase = .aborted .syncError ∧ (r.react c ch (.byte k)).sink = r.sink) ∧
    (q = r.expected ∨ q.toNat = (r.expected.toNat + 255) % 256 → q.toNat + k.toNat ≠ 255 →
      ch.readRestAfterBadPair = false →
      (r.react c ch (.byte k)).sent = r.sent ++ [0x15] ∧ (r.react c ch (.byte k)).errorCount = r.errorCount + 1 ∧
      (r.react c ch (.byte k)).sink = r.sink ∧ (r.react c ch (.byte k)).held = r.held ∧
      (r.react c ch (.byte k)).phase =
        if c.maxErrors < r.errorCount + 1 then .aborted .checksumExceeded else .transferring) ∧
    (q = r.expected ∨ q.toNat = (r.expected.toNat + 255) % 256 → q.toNat + k.toNat ≠ 255 →
      ch.readRestAfterBadPair = true →
      (r.react c ch (.byte k)).sent = r.sent ∧ (r.react c ch (.byte k)).errorCount = r.errorCount ∧
      (r.react c ch (.byte k)).sink = r.sink ∧ (r.react c ch (.byte k)).held = r.held ∧
      (r.react c ch (.byte k)).phase = .transferring ∧ (r.react c ch (.byte k)).partialFrame = [0x01, q, k]) ∧
    (q = r.expected → q.toNat + k.toNat = 255 →
      (r.react c ch (.byte k)).phase = .transferring ∧ (r.react c ch (.byte k)).sink = r.sink ++ r.unflushed.getD [] ∧
      (r.react c ch (.byte k)).unflushed = none ∧
      (r.react c ch (.byte k)).held = r.held.map fun h => { h with flushed := true }) ∧
    (q.toNat = (r.expected.toNat + 255) % 256 → q.toNat + k.toNat = 255 →
      (r.react c ch (.byte k)).phase = .transferring ∧ (r.react c ch (.byte k)).sink = r.sink ∧
      (r.react c ch (.byte k)).held = r.held)

/-- The receiver's negotiation (R132), after a drain that found nothing (log 6). Preferring checksum mode, it sends NAK once.
Preferring CRC, it sends the CRC request crc_attempts times and then NAK, and falls back to checksum mode; from there the
next byte finds it in checksum mode and in its main loop, and a time-out is a block-level error. A response to a CRC
request, any byte (log 13), settles CRC mode, in its block too. The named states, NEGOTIATING after the legacy NAK and
TRANSFERRING at the next byte, are the model's choice (log 18). -/
def Obligations.ReceiverNegotiatesTheMode : Prop :=
  ∀ (c : HostConfig) (ch : HostChoices),
    (c.mode = .checksum → ((Receiver.start c).react c ch .timeout).sent = [0x15] ∧
      ((Receiver.start c).react c ch .timeout).asked = some .checksum ∧
      ((Receiver.start c).react c ch .timeout).phase = .negotiating) ∧
    (c.mode = .crc →
      let r := (List.replicate (c.crcAttempts + 1) ChannelEvent.timeout).foldl (Receiver.react c ch) (Receiver.start c)
      r.sent = List.replicate c.crcAttempts 0x43 ++ [0x15] ∧ r.mode = .checksum ∧ r.block.mode = .checksum ∧
      r.phase = .negotiating ∧
      (∀ b : Byte, (r.react c ch (.byte b)).mode = .checksum ∧ (r.react c ch (.byte b)).block.mode = .checksum ∧
        (b ≠ 0x04 → (r.react c ch (.byte b)).phase = .transferring)) ∧
      (r.react c ch .timeout).sent = r.sent ++ [0x15] ∧ (r.react c ch .timeout).errorCount = 1) ∧
    (c.mode = .crc → ∀ (k : Nat) (b : Byte), k < c.crcAttempts →
      let r := (List.replicate (k + 1) ChannelEvent.timeout ++ [ChannelEvent.byte b]).foldl (Receiver.react c ch)
        (Receiver.start c)
      r.sent.take (k + 1) = List.replicate (k + 1) 0x43 ∧ r.mode = .crc ∧ r.block.mode = .crc)

/-- What a sender does (R141, R145 to R149). In INIT it reads nothing from the channel (log 18) and begins by loading the first
128 bytes, filler-padded. On a response: NAK before EOT retransmits the current block unchanged; ACK ends the
transfer after EOT, sends EOT where the source is exhausted, and else advances, loads the next 128 bytes (filler-padded) and
transmits them; a CRC request at the first block switches the mode and transmits; no response ends in success after EOT
and in TimeoutExceeded before it. A transmission is the frame of the block's mode, the sequence and the payload. -/
def Obligations.SenderReactsToResponses : Prop :=
  ∀ (ch : HostChoices) (t : Sender),
    (t.phase = .init → (∀ e, t.react ch e = t) ∧ t.begin.phase = .negotiating ∧ t.begin.current = t.current ∧
      t.begin.block.payload = t.source.take 128 ++ List.replicate (128 - t.source.length) 0x1A ∧
      t.begin.block.plen = 128 ∧ t.begin.source = t.source.drop 128 ∧ t.begin.sent = t.sent) ∧
    (t.phase ≠ .init → t.phase ≠ .done → (∀ e, t.phase ≠ .aborted e) →
    (t.eotSent = false → t.block.plen = 128 →
      (t.react ch (.byte 0x15)).sent = t.sent ++ frame t.block.mode t.current t.block.payload ∧
      (t.react ch (.byte 0x15)).current = t.current ∧ (t.react ch (.byte 0x15)).source = t.source ∧
      (t.react ch (.byte 0x15)).block.payload = t.block.payload ∧ (t.react ch (.byte 0x15)).block.plen = 128) ∧
    (t.eotSent = true →
      (t.react ch (.byte 0x06)).phase = .done ∧ (t.react ch (.byte 0x06)).sent = t.sent ∧
      (t.react ch .timeout).phase = .done) ∧
    (t.eotSent = false → t.source = [] →
      (t.react ch (.byte 0x06)).sent = t.sent ++ [0x04] ∧ (t.react ch (.byte 0x06)).eotSent = true ∧
      (t.react ch (.byte 0x06)).phase = .eotPending) ∧
    (t.eotSent = false → t.source ≠ [] →
      let p := t.source.take 128 ++ List.replicate (128 - t.source.length) 0x1A
      (t.react ch (.byte 0x06)).current = t.current + 1 ∧ (t.react ch (.byte 0x06)).source = t.source.drop 128 ∧
      (t.react ch (.byte 0x06)).sent = t.sent ++ frame t.block.mode (t.current + 1) p ∧
      (t.react ch (.byte 0x06)).block.payload = p ∧ (t.react ch (.byte 0x06)).block.plen = 128) ∧
    (t.current = 1 → t.block.plen = 128 →
      (t.react ch (.byte 0x43)).sent = t.sent ++ frame .crc 1 t.block.payload ∧
      (t.react ch (.byte 0x43)).mode = .crc ∧ (t.react ch (.byte 0x43)).block.mode = .crc) ∧
    (t.eotSent = false → (t.react ch .timeout).phase = .aborted .timeoutExceeded) ∧
    (t.react ch (.byte 0x06)).errorCount = 0)

/-- A receiver that is fed a whole correct frame (R137, R139, R143): of the expected sequence, it flushes what it held, holds
the payload, sends ACK, advances and clears its error count; of the one before, it sends ACK and neither advances nor
flushes, and holds the payload too, in place of the one held. The model's choice: the duplicate of a flushed payload is held
as flushed (log 9). Where no block has been accepted yet (sequence 0 first) the payload is held to be flushed (log 19). -/
def Obligations.ReceiverTakesCorrectFrames : Prop :=
  ∀ (c : HostConfig) (ch : HostChoices) (r : Receiver) (p : List Byte), p.length = 128 → r.phase = .transferring →
    r.partialFrame = [] → r.block.mode = r.mode →
    (let t := ((frame r.mode r.expected p).map ChannelEvent.byte).foldl (Receiver.react c ch) r
     t.sent = r.sent ++ [0x06] ∧ t.sink = r.sink ++ r.unflushed.getD [] ∧ t.held = some { payload := p, flushed := false } ∧
     t.expected = r.expected + 1 ∧
     t.errorCount = 0 ∧ t.phase = .transferring ∧ t.partialFrame = [] ∧ t.block.mode = r.mode ∧ t.mode = r.mode) ∧
    (let t := ((frame r.mode (r.expected - 1) p).map ChannelEvent.byte).foldl (Receiver.react c ch) r
     t.sent = r.sent ++ [0x06] ∧ t.sink = r.sink ∧ t.expected = r.expected ∧
     t.held = some { payload := p, flushed := (r.held.map Held.flushed).getD false } ∧
     t.errorCount = r.errorCount ∧ t.phase = .transferring ∧ t.partialFrame = [])

/-- The end of a transfer (R135): on EOT the receiver sends ACK, appends the held-back payload without its trailing filler,
and is done; nothing held, or only what has been flushed, nothing appended (log 10, log 9). -/
def Obligations.ReceiverFinishesOnEot : Prop :=
  ∀ (c : HostConfig) (ch : HostChoices) (r : Receiver), r.phase = .transferring → r.partialFrame = [] →
    (∀ p, r.unflushed = some p → p.length = 128) →
    (r.react c ch (.byte 0x04)).phase = .done ∧ (r.react c ch (.byte 0x04)).sent = r.sent ++ [0x06] ∧
    (r.react c ch (.byte 0x04)).sink =
      r.sink ++ (r.unflushed.map fun p => (p.reverse.dropWhile fun b => b == 0x1A).reverse).getD []

/-- A block-level error by a time-out (R133, R142), in the main loop, in a block, or on the first wait after the legacy NAK:
NAK, the count goes up by one, and the transfer aborts exactly when the count passes max_errors; with TimeoutExceeded, the
kind of the cause that crosses the ceiling, which after mixed causes is the model's choice (log 8). That a receiver still
is in NEGOTIATING after the legacy NAK and in TRANSFERRING after the time-out is the model's choice too (log 18). -/
def Obligations.ReceiverCountsTimeouts : Prop :=
  ∀ (c : HostConfig) (ch : HostChoices) (r : Receiver),
    r.phase = .transferring ∨ (r.phase = .negotiating ∧ r.asked ≠ some .crc) →
    (r.react c ch .timeout).sent = r.sent ++ [0x15] ∧ (r.react c ch .timeout).errorCount = r.errorCount + 1 ∧
    (r.react c ch .timeout).sink = r.sink ∧
    (r.react c ch .timeout).phase =
      if c.maxErrors < r.errorCount + 1 then .aborted .timeoutExceeded else .transferring

/-- The round trip of R159 over a channel that changes nothing, with its limit of C3 (the schedule and the block for an empty source are the model's, log 17 and log 11): for every source that does not end in
0x1A, every configuration and every choice of the open points, both ends come to success and the sink is the source. -/
def Obligations.LosslessTransferDeliversTheSource : Prop :=
  ∀ (c : HostConfig) (ch : HostChoices) (source : List Byte), source.getLast? ≠ some 0x1A →
    ∃ n, ((Transfer.start c source).run c ch n).sender.phase = .done ∧
      ((Transfer.start c source).run c ch n).receiver.phase = .done ∧
      ((Transfer.start c source).run c ch n).receiver.sink = source

/-- A receiver that is fed a whole frame it must refuse (R136, R137, R140, R143, R160), its sequence in the window: with an
invalid pair, where it reads the rest first (log 7), or with a validator that is not the payload's, it sends NAK, counts one
error and does not advance; only a new block with a valid pair has flushed the held-back payload. The model's choices: the
kind checksumExceeded (log 8), and that a flushed payload stays held, marked so that it is not flushed again (log 9). -/
def Obligations.ReceiverRefusesIncorrectFrames : Prop :=
  ∀ (c : HostConfig) (ch : HostChoices) (r : Receiver) (q k : Byte) (p v : List Byte), r.phase = .transferring →
    r.partialFrame = [] → r.block.mode = r.mode → p.length = 128 → v.length + 131 = frameLen r.mode →
    (q = r.expected ∨ q.toNat = (r.expected.toNat + 255) % 256) →
    let t := (([0x01, q, k] ++ p ++ v).map ChannelEvent.byte).foldl (Receiver.react c ch) r
    let refused := t.sent = r.sent ++ [0x15] ∧ t.errorCount = r.errorCount + 1 ∧ t.expected = r.expected ∧
      t.partialFrame = [] ∧
      t.phase = if c.maxErrors < r.errorCount + 1 then .aborted .checksumExceeded else .transferring
    (q.toNat + k.toNat ≠ 255 → ch.readRestAfterBadPair = true → refused ∧ t.sink = r.sink ∧ t.held = r.held) ∧
    (q.toNat + k.toNat = 255 → v ≠ validatorBytes r.mode p → refused ∧
      (q = r.expected → t.sink = r.sink ++ r.unflushed.getD [] ∧ t.unflushed = none ∧
        t.held = r.held.map fun h => { h with flushed := true }) ∧
      (q ≠ r.expected → t.sink = r.sink ∧ t.held = r.held))

/-- The state machine of R158 for both engines: no reaction goes back in the order INIT, NEGOTIATING, TRANSFERRING,
EOT_PENDING, DONE or ABORTED; INIT leads to NEGOTIATING (or ends); a terminal session does nothing more. For the sender the
premise, which every reaction keeps, says that it is in EOT_PENDING only after EOT. (R158 shows ABORTED after TRANSFERRING
only; that R128 and R145 end a session before is said in log 18.) -/
def Obligations.PhasesOnlyAdvance : Prop :=
  (∀ (c : HostConfig) (ch : HostChoices) (r : Receiver) (e : ChannelEvent),
    r.phase.rank ≤ (r.react c ch e).phase.rank ∧ (r.phase.terminal = true → r.react c ch e = r) ∧
    (r.phase = .init → (r.react c ch e).phase = .init ∨ (r.react c ch e).phase = .negotiating ∨
      (r.react c ch e).phase = .aborted .unexpectedEndOfChannel)) ∧
  (∀ (c : HostConfig) (source : List Byte), (Receiver.start c).phase = .init ∧ (Sender.start c source).phase = .init ∧
    (Sender.start c source).begin.phase = .negotiating) ∧
  ∀ (ch : HostChoices) (t : Sender) (e : ChannelEvent), (t.phase = .eotPending → t.eotSent = true) →
    t.phase.rank ≤ (t.react ch e).phase.rank ∧ (t.phase.terminal = true → t.react ch e = t) ∧
    ((t.react ch e).phase = .eotPending → (t.react ch e).eotSent = true)
end

