-- ==== Sys2Proof/Laws/Memory.lean ====
section
/-! SUPPORT. The laws of a buffer as cells: a read after a write, what a write leaves alone, and that every operation keeps
the canonical form. -/

namespace Sys2Proof.Machine

@[simp] theorem Memory.read?_nil (i : Nat) : Memory.read? [] i = none := rfl

theorem Memory.read?_cons (c : Host.Cell) (m : Memory) (i : Nat) :
    Memory.read? (c :: m) i = if c.1 = i then some c.2 else Memory.read? m i := rfl

/-- What one write does to every read: the one cell, and no other. -/
theorem Memory.read?_write (m : Memory) (i j : Nat) (v : Byte) :
    (m.write i v).read? j = if j = i then some v else m.read? j := by
  induction m with
  | nil => simp [Memory.write, Memory.read?_cons, eq_comm]
  | cons c m ih =>
    obtain ⟨a, w⟩ := c
    simp only [Memory.write]
    split
    · simp [Memory.read?_cons, eq_comm]
    · split
      · subst i; by_cases h : j = a <;> simp [Memory.read?_cons, h, eq_comm]
      · by_cases h : a = j
        · have : j ≠ i := by omega
          simp [Memory.read?_cons, h, this]
        · simp [Memory.read?_cons, h, ih]

@[simp] theorem Memory.read?_write_self (m : Memory) (i : Nat) (v : Byte) : (m.write i v).read? i = some v := by
  simp [Memory.read?_write]

theorem Memory.read?_write_other (m : Memory) {i j : Nat} (v : Byte) (h : j ≠ i) :
    (m.write i v).read? j = m.read? j := by
  simp [Memory.read?_write, h]

/-- What consecutive writes do to every read. -/
theorem Memory.read?_writeAll (m : Memory) (i j : Nat) (vs : List Byte) :
    (m.writeAll i vs).read? j = if i ≤ j ∧ j < i + vs.length then vs[j - i]? else m.read? j := by
  induction vs generalizing m i with
  | nil => simp only [Memory.writeAll, List.length_nil]; rw [if_neg (by omega)]
  | cons v vs ih =>
    rw [Memory.writeAll, ih, Memory.read?_write, List.length_cons]
    by_cases h : j = i
    · subst h; simp
    · by_cases h' : i + 1 ≤ j ∧ j < i + 1 + vs.length
      · rw [if_pos h', if_pos (by omega), show j - i = (j - (i + 1)) + 1 by omega, List.getElem?_cons_succ]
      · rw [if_neg h', if_neg h, if_neg (by omega)]

theorem Memory.read?_writeAll_inside (m : Memory) (i k : Nat) (vs : List Byte) (h : k < vs.length) :
    (m.writeAll i vs).read? (i + k) = some vs[k] := by
  rw [Memory.read?_writeAll, if_pos (by omega), Nat.add_sub_cancel_left, List.getElem?_eq_getElem h]

theorem Memory.read?_writeAll_outside (m : Memory) {i j : Nat} (vs : List Byte) (h : j < i ∨ i + vs.length ≤ j) :
    (m.writeAll i vs).read? j = m.read? j := by
  rw [Memory.read?_writeAll, if_neg (by omega)]

/-! ## The canonical form -/

theorem Memory.wfFrom_mono {lo lo' size : Nat} {m : Memory} (h : lo' ≤ lo) (hw : m.wfFrom lo size = true) :
    m.wfFrom lo' size = true := by
  cases m with
  | nil => rfl
  | cons c m =>
    obtain ⟨a, w⟩ := c
    simp only [Memory.wfFrom, Bool.and_eq_true, decide_eq_true_eq] at hw ⊢
    exact ⟨⟨by omega, hw.1.2⟩, hw.2⟩

theorem Memory.wfFrom_write {lo size i : Nat} {m : Memory} (v : Byte) (hw : m.wfFrom lo size = true) (hlo : lo ≤ i)
    (hi : i < size) : (m.write i v).wfFrom lo size = true := by
  induction m generalizing lo with
  | nil => simp [Memory.write, Memory.wfFrom, hlo, hi]
  | cons c m ih =>
    obtain ⟨a, w⟩ := c
    simp only [Memory.wfFrom, Bool.and_eq_true, decide_eq_true_eq] at hw
    simp only [Memory.write]
    split
    · simp only [Memory.wfFrom, Bool.and_eq_true, decide_eq_true_eq]
      exact ⟨⟨hlo, hi⟩, ⟨by omega, hw.1.2⟩, hw.2⟩
    · split
      · subst i; simp only [Memory.wfFrom, Bool.and_eq_true, decide_eq_true_eq]
        exact ⟨⟨hlo, hi⟩, hw.2⟩
      · simp only [Memory.wfFrom, Bool.and_eq_true, decide_eq_true_eq]
        exact ⟨⟨hw.1.1, hw.1.2⟩, ih hw.2 (by omega)⟩

/-- A write inside the buffer keeps its canonical form. -/
theorem Memory.wf_write {size i : Nat} {m : Memory} (v : Byte) (hw : m.wf size = true) (hi : i < size) :
    (m.write i v).wf size = true :=
  Memory.wfFrom_write v hw (Nat.zero_le i) hi

/-- Consecutive writes inside the buffer keep its canonical form. -/
theorem Memory.wf_writeAll {size i : Nat} {m : Memory} (vs : List Byte) (hw : m.wf size = true)
    (hi : i + vs.length ≤ size) : (m.writeAll i vs).wf size = true := by
  induction vs generalizing m i with
  | nil => exact hw
  | cons v vs ih =>
    rw [List.length_cons] at hi
    exact ih (Memory.wf_write v hw (by omega)) (by omega)

theorem Memory.wf_nil (size : Nat) : Memory.wf size [] = true := rfl

/-- Appending at the write pointer keeps the canonical form whatever the count is. -/
theorem Memory.wf_appendCell {b : Buffer} {m : Memory} (count v : Byte) (hw : m.wf (bufferSize b) = true) :
    (appendCell b m count v).wf (bufferSize b) = true := by
  unfold appendCell; split
  · exact Memory.wf_write v hw ‹_›
  · exact hw

theorem Memory.read?_appendCell (b : Buffer) (m : Memory) (count v : Byte) (j : Nat) :
    (appendCell b m count v).read? j =
      if count.toNat < bufferSize b ∧ j = count.toNat then some v else m.read? j := by
  unfold appendCell; split
  · rw [Memory.read?_write]; simp [*]
  · simp [*]

end Sys2Proof.Machine
end

