-- ==== Sys2Proof/Laws/State.lean ====
section
/-! SUPPORT. One lemma per field per update of State, so that no later proof unfolds a record update. -/

namespace Sys2Proof.Machine

variable (s : State)

/-! ## setSum -/

@[simp] theorem State.setSum_sum (v : Byte) : (s.setSum v).sum = v := rfl
@[simp] theorem State.setSum_crc (v : Byte) : (s.setSum v).crc = s.crc := rfl
@[simp] theorem State.setSum_mode (v : Byte) : (s.setSum v).mode = s.mode := rfl
@[simp] theorem State.setSum_pbuf (v : Byte) : (s.setSum v).pbuf = s.pbuf := rfl
@[simp] theorem State.setSum_plen (v : Byte) : (s.setSum v).plen = s.plen := rfl
@[simp] theorem State.setSum_fbuf (v : Byte) : (s.setSum v).fbuf = s.fbuf := rfl
@[simp] theorem State.setSum_flen (v : Byte) : (s.setSum v).flen = s.flen := rfl
@[simp] theorem State.setSum_rseq (v : Byte) : (s.setSum v).rseq = s.rseq := rfl
@[simp] theorem State.setSum_stat (v : Byte) : (s.setSum v).stat = s.stat := rfl
@[simp] theorem State.setSum_err (v : Byte) : (s.setSum v).err = s.err := rfl
@[simp] theorem State.setSum_epoch (v : Byte) : (s.setSum v).epoch = s.epoch := rfl
@[simp] theorem State.setSum_pending (v : Byte) : (s.setSum v).pending = s.pending := rfl
@[simp] theorem State.setSum_response (v : Byte) : (s.setSum v).response = s.response := rfl

/-! ## setCrc -/

@[simp] theorem State.setCrc_sum (v : Word) : (s.setCrc v).sum = s.sum := rfl
@[simp] theorem State.setCrc_crc (v : Word) : (s.setCrc v).crc = v := rfl
@[simp] theorem State.setCrc_mode (v : Word) : (s.setCrc v).mode = s.mode := rfl
@[simp] theorem State.setCrc_pbuf (v : Word) : (s.setCrc v).pbuf = s.pbuf := rfl
@[simp] theorem State.setCrc_plen (v : Word) : (s.setCrc v).plen = s.plen := rfl
@[simp] theorem State.setCrc_fbuf (v : Word) : (s.setCrc v).fbuf = s.fbuf := rfl
@[simp] theorem State.setCrc_flen (v : Word) : (s.setCrc v).flen = s.flen := rfl
@[simp] theorem State.setCrc_rseq (v : Word) : (s.setCrc v).rseq = s.rseq := rfl
@[simp] theorem State.setCrc_stat (v : Word) : (s.setCrc v).stat = s.stat := rfl
@[simp] theorem State.setCrc_err (v : Word) : (s.setCrc v).err = s.err := rfl
@[simp] theorem State.setCrc_epoch (v : Word) : (s.setCrc v).epoch = s.epoch := rfl
@[simp] theorem State.setCrc_pending (v : Word) : (s.setCrc v).pending = s.pending := rfl
@[simp] theorem State.setCrc_response (v : Word) : (s.setCrc v).response = s.response := rfl

/-! ## setMode -/

@[simp] theorem State.setMode_sum (m : Mode) : (s.setMode m).sum = s.sum := rfl
@[simp] theorem State.setMode_crc (m : Mode) : (s.setMode m).crc = s.crc := rfl
@[simp] theorem State.setMode_mode (m : Mode) : (s.setMode m).mode = m := rfl
@[simp] theorem State.setMode_pbuf (m : Mode) : (s.setMode m).pbuf = s.pbuf := rfl
@[simp] theorem State.setMode_plen (m : Mode) : (s.setMode m).plen = s.plen := rfl
@[simp] theorem State.setMode_fbuf (m : Mode) : (s.setMode m).fbuf = s.fbuf := rfl
@[simp] theorem State.setMode_flen (m : Mode) : (s.setMode m).flen = s.flen := rfl
@[simp] theorem State.setMode_rseq (m : Mode) : (s.setMode m).rseq = s.rseq := rfl
@[simp] theorem State.setMode_stat (m : Mode) : (s.setMode m).stat = s.stat := rfl
@[simp] theorem State.setMode_err (m : Mode) : (s.setMode m).err = s.err := rfl
@[simp] theorem State.setMode_epoch (m : Mode) : (s.setMode m).epoch = s.epoch := rfl
@[simp] theorem State.setMode_pending (m : Mode) : (s.setMode m).pending = s.pending := rfl
@[simp] theorem State.setMode_response (m : Mode) : (s.setMode m).response = s.response := rfl

/-! ## setPayload -/

@[simp] theorem State.setPayload_sum (m : Memory) (n : Byte) : (s.setPayload m n).sum = s.sum := rfl
@[simp] theorem State.setPayload_crc (m : Memory) (n : Byte) : (s.setPayload m n).crc = s.crc := rfl
@[simp] theorem State.setPayload_mode (m : Memory) (n : Byte) : (s.setPayload m n).mode = s.mode := rfl
@[simp] theorem State.setPayload_pbuf (m : Memory) (n : Byte) : (s.setPayload m n).pbuf = m := rfl
@[simp] theorem State.setPayload_plen (m : Memory) (n : Byte) : (s.setPayload m n).plen = n := rfl
@[simp] theorem State.setPayload_fbuf (m : Memory) (n : Byte) : (s.setPayload m n).fbuf = s.fbuf := rfl
@[simp] theorem State.setPayload_flen (m : Memory) (n : Byte) : (s.setPayload m n).flen = s.flen := rfl
@[simp] theorem State.setPayload_rseq (m : Memory) (n : Byte) : (s.setPayload m n).rseq = s.rseq := rfl
@[simp] theorem State.setPayload_stat (m : Memory) (n : Byte) : (s.setPayload m n).stat = s.stat := rfl
@[simp] theorem State.setPayload_err (m : Memory) (n : Byte) : (s.setPayload m n).err = s.err := rfl
@[simp] theorem State.setPayload_epoch (m : Memory) (n : Byte) : (s.setPayload m n).epoch = s.epoch := rfl
@[simp] theorem State.setPayload_pending (m : Memory) (n : Byte) : (s.setPayload m n).pending = s.pending := rfl
@[simp] theorem State.setPayload_response (m : Memory) (n : Byte) : (s.setPayload m n).response = s.response := rfl

/-! ## setFrame -/

@[simp] theorem State.setFrame_sum (m : Memory) (n : Byte) : (s.setFrame m n).sum = s.sum := rfl
@[simp] theorem State.setFrame_crc (m : Memory) (n : Byte) : (s.setFrame m n).crc = s.crc := rfl
@[simp] theorem State.setFrame_mode (m : Memory) (n : Byte) : (s.setFrame m n).mode = s.mode := rfl
@[simp] theorem State.setFrame_pbuf (m : Memory) (n : Byte) : (s.setFrame m n).pbuf = s.pbuf := rfl
@[simp] theorem State.setFrame_plen (m : Memory) (n : Byte) : (s.setFrame m n).plen = s.plen := rfl
@[simp] theorem State.setFrame_fbuf (m : Memory) (n : Byte) : (s.setFrame m n).fbuf = m := rfl
@[simp] theorem State.setFrame_flen (m : Memory) (n : Byte) : (s.setFrame m n).flen = n := rfl
@[simp] theorem State.setFrame_rseq (m : Memory) (n : Byte) : (s.setFrame m n).rseq = s.rseq := rfl
@[simp] theorem State.setFrame_stat (m : Memory) (n : Byte) : (s.setFrame m n).stat = s.stat := rfl
@[simp] theorem State.setFrame_err (m : Memory) (n : Byte) : (s.setFrame m n).err = s.err := rfl
@[simp] theorem State.setFrame_epoch (m : Memory) (n : Byte) : (s.setFrame m n).epoch = s.epoch := rfl
@[simp] theorem State.setFrame_pending (m : Memory) (n : Byte) : (s.setFrame m n).pending = s.pending := rfl
@[simp] theorem State.setFrame_response (m : Memory) (n : Byte) : (s.setFrame m n).response = s.response := rfl

/-! ## setUnpacked -/

@[simp] theorem State.setUnpacked_sum (q : Byte) (x : BitVec 3) : (s.setUnpacked q x).sum = s.sum := rfl
@[simp] theorem State.setUnpacked_crc (q : Byte) (x : BitVec 3) : (s.setUnpacked q x).crc = s.crc := rfl
@[simp] theorem State.setUnpacked_mode (q : Byte) (x : BitVec 3) : (s.setUnpacked q x).mode = s.mode := rfl
@[simp] theorem State.setUnpacked_pbuf (q : Byte) (x : BitVec 3) : (s.setUnpacked q x).pbuf = s.pbuf := rfl
@[simp] theorem State.setUnpacked_plen (q : Byte) (x : BitVec 3) : (s.setUnpacked q x).plen = s.plen := rfl
@[simp] theorem State.setUnpacked_fbuf (q : Byte) (x : BitVec 3) : (s.setUnpacked q x).fbuf = s.fbuf := rfl
@[simp] theorem State.setUnpacked_flen (q : Byte) (x : BitVec 3) : (s.setUnpacked q x).flen = s.flen := rfl
@[simp] theorem State.setUnpacked_rseq (q : Byte) (x : BitVec 3) : (s.setUnpacked q x).rseq = q := rfl
@[simp] theorem State.setUnpacked_stat (q : Byte) (x : BitVec 3) : (s.setUnpacked q x).stat = x := rfl
@[simp] theorem State.setUnpacked_err (q : Byte) (x : BitVec 3) : (s.setUnpacked q x).err = s.err := rfl
@[simp] theorem State.setUnpacked_epoch (q : Byte) (x : BitVec 3) : (s.setUnpacked q x).epoch = s.epoch := rfl
@[simp] theorem State.setUnpacked_pending (q : Byte) (x : BitVec 3) : (s.setUnpacked q x).pending = s.pending := rfl
@[simp] theorem State.setUnpacked_response (q : Byte) (x : BitVec 3) : (s.setUnpacked q x).response = s.response := rfl

/-! ## setPending -/

@[simp] theorem State.setPending_sum (l : List HostInput) : (s.setPending l).sum = s.sum := rfl
@[simp] theorem State.setPending_crc (l : List HostInput) : (s.setPending l).crc = s.crc := rfl
@[simp] theorem State.setPending_mode (l : List HostInput) : (s.setPending l).mode = s.mode := rfl
@[simp] theorem State.setPending_pbuf (l : List HostInput) : (s.setPending l).pbuf = s.pbuf := rfl
@[simp] theorem State.setPending_plen (l : List HostInput) : (s.setPending l).plen = s.plen := rfl
@[simp] theorem State.setPending_fbuf (l : List HostInput) : (s.setPending l).fbuf = s.fbuf := rfl
@[simp] theorem State.setPending_flen (l : List HostInput) : (s.setPending l).flen = s.flen := rfl
@[simp] theorem State.setPending_rseq (l : List HostInput) : (s.setPending l).rseq = s.rseq := rfl
@[simp] theorem State.setPending_stat (l : List HostInput) : (s.setPending l).stat = s.stat := rfl
@[simp] theorem State.setPending_err (l : List HostInput) : (s.setPending l).err = s.err := rfl
@[simp] theorem State.setPending_epoch (l : List HostInput) : (s.setPending l).epoch = s.epoch := rfl
@[simp] theorem State.setPending_pending (l : List HostInput) : (s.setPending l).pending = l := rfl
@[simp] theorem State.setPending_response (l : List HostInput) : (s.setPending l).response = s.response := rfl

/-! ## answered -/

@[simp] theorem State.answered_sum (d : Word) : (s.answered d).sum = s.sum := rfl
@[simp] theorem State.answered_crc (d : Word) : (s.answered d).crc = s.crc := rfl
@[simp] theorem State.answered_mode (d : Word) : (s.answered d).mode = s.mode := rfl
@[simp] theorem State.answered_pbuf (d : Word) : (s.answered d).pbuf = s.pbuf := rfl
@[simp] theorem State.answered_plen (d : Word) : (s.answered d).plen = s.plen := rfl
@[simp] theorem State.answered_fbuf (d : Word) : (s.answered d).fbuf = s.fbuf := rfl
@[simp] theorem State.answered_flen (d : Word) : (s.answered d).flen = s.flen := rfl
@[simp] theorem State.answered_rseq (d : Word) : (s.answered d).rseq = s.rseq := rfl
@[simp] theorem State.answered_stat (d : Word) : (s.answered d).stat = s.stat := rfl
@[simp] theorem State.answered_err (d : Word) : (s.answered d).err = s.err := rfl
@[simp] theorem State.answered_epoch (d : Word) : (s.answered d).epoch = s.epoch := rfl
@[simp] theorem State.answered_pending (d : Word) : (s.answered d).pending = s.pending := rfl
@[simp] theorem State.answered_response (d : Word) : (s.answered d).response = some (.ok d) := rfl

/-! ## faulted -/

@[simp] theorem State.faulted_sum (f : BlockFault) : (s.faulted f).sum = s.sum := rfl
@[simp] theorem State.faulted_crc (f : BlockFault) : (s.faulted f).crc = s.crc := rfl
@[simp] theorem State.faulted_mode (f : BlockFault) : (s.faulted f).mode = s.mode := rfl
@[simp] theorem State.faulted_pbuf (f : BlockFault) : (s.faulted f).pbuf = s.pbuf := rfl
@[simp] theorem State.faulted_plen (f : BlockFault) : (s.faulted f).plen = s.plen := rfl
@[simp] theorem State.faulted_fbuf (f : BlockFault) : (s.faulted f).fbuf = s.fbuf := rfl
@[simp] theorem State.faulted_flen (f : BlockFault) : (s.faulted f).flen = s.flen := rfl
@[simp] theorem State.faulted_rseq (f : BlockFault) : (s.faulted f).rseq = s.rseq := rfl
@[simp] theorem State.faulted_stat (f : BlockFault) : (s.faulted f).stat = s.stat := rfl
@[simp] theorem State.faulted_err (f : BlockFault) : (s.faulted f).err = s.err ||| f.bit := rfl
@[simp] theorem State.faulted_epoch (f : BlockFault) : (s.faulted f).epoch = s.epoch := rfl
@[simp] theorem State.faulted_pending (f : BlockFault) : (s.faulted f).pending = s.pending := rfl
@[simp] theorem State.faulted_response (f : BlockFault) : (s.faulted f).response = some (.fault f) := rfl

/-! ## presentFirst -/

@[simp] theorem State.presentFirst_sum (w : Word) : (s.presentFirst w).sum = s.sum := rfl
@[simp] theorem State.presentFirst_crc (w : Word) : (s.presentFirst w).crc = s.crc := rfl
@[simp] theorem State.presentFirst_mode (w : Word) : (s.presentFirst w).mode = s.mode := rfl
@[simp] theorem State.presentFirst_pbuf (w : Word) : (s.presentFirst w).pbuf = s.pbuf := rfl
@[simp] theorem State.presentFirst_plen (w : Word) : (s.presentFirst w).plen = s.plen := rfl
@[simp] theorem State.presentFirst_fbuf (w : Word) : (s.presentFirst w).fbuf = s.fbuf := rfl
@[simp] theorem State.presentFirst_flen (w : Word) : (s.presentFirst w).flen = s.flen := rfl
@[simp] theorem State.presentFirst_rseq (w : Word) : (s.presentFirst w).rseq = s.rseq := rfl
@[simp] theorem State.presentFirst_stat (w : Word) : (s.presentFirst w).stat = s.stat := rfl
@[simp] theorem State.presentFirst_err (w : Word) : (s.presentFirst w).err = s.err := rfl
@[simp] theorem State.presentFirst_epoch (w : Word) : (s.presentFirst w).epoch = s.epoch := rfl
@[simp] theorem State.presentFirst_pending (w : Word) : (s.presentFirst w).pending = .command w :: s.pending := rfl
@[simp] theorem State.presentFirst_response (w : Word) : (s.presentFirst w).response = s.response := rfl

/-! ## resetEvent -/

@[simp] theorem State.resetEvent_sum : s.resetEvent.sum = State.reset.sum := rfl
@[simp] theorem State.resetEvent_crc : s.resetEvent.crc = State.reset.crc := rfl
@[simp] theorem State.resetEvent_mode : s.resetEvent.mode = State.reset.mode := rfl
@[simp] theorem State.resetEvent_pbuf : s.resetEvent.pbuf = State.reset.pbuf := rfl
@[simp] theorem State.resetEvent_plen : s.resetEvent.plen = State.reset.plen := rfl
@[simp] theorem State.resetEvent_fbuf : s.resetEvent.fbuf = State.reset.fbuf := rfl
@[simp] theorem State.resetEvent_flen : s.resetEvent.flen = State.reset.flen := rfl
@[simp] theorem State.resetEvent_rseq : s.resetEvent.rseq = State.reset.rseq := rfl
@[simp] theorem State.resetEvent_stat : s.resetEvent.stat = State.reset.stat := rfl
@[simp] theorem State.resetEvent_err : s.resetEvent.err = State.reset.err := rfl
@[simp] theorem State.resetEvent_epoch : s.resetEvent.epoch = s.epoch + 1 := rfl
@[simp] theorem State.resetEvent_pending : s.resetEvent.pending = s.pending := rfl
@[simp] theorem State.resetEvent_response : s.resetEvent.response = State.reset.response := rfl

/-! ## setValidator: the selected accumulator only (R103, R108) -/

@[simp] theorem State.setValidator_sum (p : List Byte) :
    (s.setValidator p).sum = if s.mode = .checksum then checksum p else s.sum := by
  unfold State.setValidator; split <;> simp [*]

@[simp] theorem State.setValidator_crc (p : List Byte) :
    (s.setValidator p).crc = if s.mode = .crc then crc16 p else s.crc := by
  unfold State.setValidator; split <;> simp [*]

@[simp] theorem State.setValidator_mode (p : List Byte) : (s.setValidator p).mode = s.mode := by
  unfold State.setValidator; split <;> simp [*]

@[simp] theorem State.setValidator_pbuf (p : List Byte) : (s.setValidator p).pbuf = s.pbuf := by
  unfold State.setValidator; split <;> simp [*]

@[simp] theorem State.setValidator_plen (p : List Byte) : (s.setValidator p).plen = s.plen := by
  unfold State.setValidator; split <;> simp [*]

@[simp] theorem State.setValidator_fbuf (p : List Byte) : (s.setValidator p).fbuf = s.fbuf := by
  unfold State.setValidator; split <;> simp [*]

@[simp] theorem State.setValidator_flen (p : List Byte) : (s.setValidator p).flen = s.flen := by
  unfold State.setValidator; split <;> simp [*]

@[simp] theorem State.setValidator_rseq (p : List Byte) : (s.setValidator p).rseq = s.rseq := by
  unfold State.setValidator; split <;> simp [*]

@[simp] theorem State.setValidator_stat (p : List Byte) : (s.setValidator p).stat = s.stat := by
  unfold State.setValidator; split <;> simp [*]

@[simp] theorem State.setValidator_err (p : List Byte) : (s.setValidator p).err = s.err := by
  unfold State.setValidator; split <;> simp [*]

@[simp] theorem State.setValidator_epoch (p : List Byte) : (s.setValidator p).epoch = s.epoch := by
  unfold State.setValidator; split <;> simp [*]

@[simp] theorem State.setValidator_pending (p : List Byte) : (s.setValidator p).pending = s.pending := by
  unfold State.setValidator; split <;> simp [*]

@[simp] theorem State.setValidator_response (p : List Byte) : (s.setValidator p).response = s.response := by
  unfold State.setValidator; split <;> simp [*]

/-! ## The buffers by name -/

@[simp] theorem State.cells_payload : s.cells .payload = s.pbuf := rfl
@[simp] theorem State.cells_frame : s.cells .frame = s.fbuf := rfl
@[simp] theorem State.count_payload : s.count .payload = s.plen := rfl
@[simp] theorem State.count_frame : s.count .frame = s.flen := rfl
@[simp] theorem bufferSize_payload : bufferSize .payload = 128 := rfl
@[simp] theorem bufferSize_frame : bufferSize .frame = 133 := rfl

end Sys2Proof.Machine
end

