-- ==== Sys2Proof/Laws/Ops.lean ====
section
/-! SUPPORT. Said once, what each shared operation can do: reading bytes of a buffer, the two guards, the responses. -/

namespace Sys2Proof.Machine

/-! ## Bytes of a buffer -/

@[simp] theorem State.length_bytesFrom (s : State) (b : Buffer) (i n : Nat) : (s.bytesFrom b i n).length = n := by
  induction n generalizing i with
  | zero => rfl
  | succ n ih => simp [State.bytesFrom, ih]

@[simp] theorem State.length_payload (s : State) : s.payload.length = 128 := State.length_bytesFrom ..

@[simp] theorem State.length_framePayload (s : State) : s.framePayload.length = 128 := State.length_bytesFrom ..

/-- The `k`-th of the bytes from `i` on is the byte at `i + k`. -/
theorem State.getElem?_bytesFrom (s : State) (b : Buffer) (i n k : Nat) :
    (s.bytesFrom b i n)[k]? = if k < n then some (s.byteAt b (i + k)) else none := by
  induction n generalizing i k with
  | zero => simp [State.bytesFrom]
  | succ n ih =>
    cases k with
    | zero => simp [State.bytesFrom]
    | succ k =>
      rw [State.bytesFrom, List.getElem?_cons_succ, ih]
      simp only [Nat.add_lt_add_iff_right, show i + 1 + k = i + (k + 1) by omega]

theorem State.getElem_bytesFrom (s : State) (b : Buffer) (i n k : Nat) (h : k < (s.bytesFrom b i n).length) :
    (s.bytesFrom b i n)[k] = s.byteAt b (i + k) := by
  have hk : k < n := by simpa using h
  have := State.getElem?_bytesFrom s b i n k
  rw [List.getElem?_eq_getElem h, if_pos hk] at this
  exact Option.some.inj this

/-- Bytes depend only on the bytes at their indices. -/
theorem State.bytesFrom_congr {s t : State} {b : Buffer} {i n : Nat}
    (h : ∀ k < n, s.byteAt b (i + k) = t.byteAt b (i + k)) : s.bytesFrom b i n = t.bytesFrom b i n := by
  apply List.ext_getElem?
  intro k
  rw [State.getElem?_bytesFrom, State.getElem?_bytesFrom]
  split
  · rw [h k ‹_›]
  · rfl

theorem State.bytesFrom_eq_iff (s t : State) (b : Buffer) (i n : Nat) :
    s.bytesFrom b i n = t.bytesFrom b i n ↔ ∀ k < n, s.byteAt b (i + k) = t.byteAt b (i + k) := by
  refine ⟨fun h k hk => ?_, State.bytesFrom_congr⟩
  have hb : (s.bytesFrom b i n)[k]? = (t.bytesFrom b i n)[k]? := by rw [h]
  rw [State.getElem?_bytesFrom, State.getElem?_bytesFrom, if_pos hk, if_pos hk] at hb
  exact Option.some.inj hb

/-- A byte that is listed is what the cell holds. -/
theorem State.byteAt_of_read? {s : State} {b : Buffer} {i : Nat} {v : Byte} (h : (s.cells b).read? i = some v) :
    s.byteAt b i = v := by
  simp [State.byteAt, h]

/-- The bytes of a buffer depend on its cells and on the epoch only. -/
theorem State.byteAt_congr {s t : State} {b : Buffer} (i : Nat) (hc : s.cells b = t.cells b) (he : s.epoch = t.epoch) :
    s.byteAt b i = t.byteAt b i := by
  simp [State.byteAt, hc, he]

/-! ## Responses and guards -/

/-- `respond` answers a next state, the response being `ok(d)` and nothing else changed. -/
theorem respond_next {d : Word} {s t : State} (h : respond d s = .next t) : t = s.answered d := by
  simpa [respond, eq_comm] using h

/-- `raise` answers a next state: one `ERR` bit and the response (R172). -/
theorem raise_next {f : BlockFault} {s t : State} (h : raise f s = .next t) : t = s.faulted f := by
  simpa [raise, eq_comm] using h

/-- The guard of the whole-payload computations: everything it can do. -/
theorem withPayload_cases (s : State) (k : List Byte → Result) :
    (s.plen.toNat = 128 ∧ withPayload s k = k s.payload) ∨
      (s.plen.toNat ≠ 128 ∧ withPayload s k = .next (s.faulted .invalidBlockSize)) := by
  unfold withPayload
  by_cases h : s.plen.toNat = Config.payloadLen
  · exact .inl ⟨h, if_pos h⟩
  · exact .inr ⟨h, if_neg h⟩

/-- The indexed read: everything it can do. -/
theorem readIndexed_cases (b : Buffer) (imm : Byte) (s : State) :
    (imm.toNat < validCount b (s.count b) ∧
        readIndexed b imm s = .next (s.answered (zext16 (s.byteAt b imm.toNat)))) ∨
      (validCount b (s.count b) ≤ imm.toNat ∧ readIndexed b imm s = .next (s.faulted .indexOutOfRange)) := by
  unfold readIndexed
  by_cases h : validCount b (s.count b) ≤ imm.toNat
  · exact .inr ⟨h, if_pos h⟩
  · exact .inl ⟨by omega, if_neg h⟩

/-! ## Counts and widths -/

@[simp] theorem toNat_bumpCount (n : Byte) : (bumpCount n).toNat = min (n.toNat + 1) 255 := by
  simp [bumpCount, Config.countMax]

@[simp] theorem toNat_zext16 (b : Byte) : (zext16 b).toNat = b.toNat := by
  simp only [zext16, BitVec.toNat_setWidth]; omega

theorem validCount_le (b : Buffer) (n : Byte) : validCount b n ≤ bufferSize b := Nat.min_le_right ..

@[simp] theorem toNat_frameLen (m : Mode) : (BitVec.ofNat 8 (frameLen m)).toNat = frameLen m := by cases m <;> rfl

@[simp] theorem length_validatorBytes_add (m : Mode) (p : List Byte) :
    131 + (validatorBytes m p).length = frameLen m := by cases m <;> rfl

/-- A frame has the length of its mode (R49, R102). -/
theorem length_frame (m : Mode) (q : Byte) (p : List Byte) (h : p.length = 128) : (frame m q p).length = frameLen m := by
  have := length_validatorBytes_add m p
  simp [frame, h]; omega

/-- The two bytes of a 16-bit number, put together again, are the number (R33). -/
@[simp] theorem highByte_append_lowByte (v : Word) : highByte v ++ lowByte v = v := by
  apply BitVec.eq_of_getLsbD_eq
  intro i hi
  simp only [highByte, lowByte, BitVec.getLsbD_append, BitVec.getLsbD_extractLsb']
  rcases Nat.lt_or_ge i 8 with h | h
  · simp [h]
  · simp [show ¬ i < 8 by omega, show i - 8 < 8 by omega, show 8 + (i - 8) = i by omega]

@[simp] theorem highByte_append (a b : Byte) : highByte (a ++ b) = a := by
  apply BitVec.eq_of_getLsbD_eq
  intro i hi
  simp only [highByte, BitVec.getLsbD_extractLsb', BitVec.getLsbD_append, hi, decide_true, Bool.true_and]
  simp

@[simp] theorem lowByte_append (a b : Byte) : lowByte (a ++ b) = b := by
  apply BitVec.eq_of_getLsbD_eq
  intro i hi
  simp only [lowByte, BitVec.getLsbD_extractLsb', BitVec.getLsbD_append, hi, decide_true, Bool.true_and]
  simp [hi]

end Sys2Proof.Machine
end

