-- ==== Sys2Proof/Laws/Crc.lean ====
section
/-! SUPPORT. The arithmetic of the two validators: the checksum from any start, the shift register's linearity, and the
bytes of a 16-bit number as the register sees them. -/

namespace Sys2Proof.Machine

/-! ## The checksum -/

/-- The fold from any start is the start plus the checksum. -/
theorem foldl_sumStep (s : Byte) (p : List Byte) : p.foldl sumStep s = s + checksum p := by
  induction p generalizing s with
  | nil => simp [checksum]
  | cons b p ih =>
    simp only [List.foldl_cons, checksum]
    rw [ih, ih (sumStep 0 b)]
    simp [sumStep, BitVec.add_assoc]

@[simp] theorem checksum_nil : checksum [] = 0 := rfl

theorem checksum_cons (b : Byte) (p : List Byte) : checksum (b :: p) = b + checksum p := by
  rw [checksum, List.foldl_cons, foldl_sumStep]; simp [sumStep]

/-! ## The shift register is linear (R78) -/

theorem crcShift_xor (a b : Word) : crcShift (a ^^^ b) = crcShift a ^^^ crcShift b := by
  unfold crcShift
  rw [BitVec.getLsbD_xor, BitVec.shiftLeft_xor_distrib]
  cases a.getLsbD 15 <;> cases b.getLsbD 15 <;>
    simp only [bne_self_eq_false, Bool.false_bne, Bool.bne_false, if_true, if_false, Bool.false_eq_true]
  · ac_rfl
  · ac_rfl
  · rw [show a <<< 1 ^^^ Config.crcPoly ^^^ (b <<< 1 ^^^ Config.crcPoly) =
      (a <<< 1 ^^^ b <<< 1) ^^^ (Config.crcPoly ^^^ Config.crcPoly) by ac_rfl]
    simp

theorem crcShiftN_xor (n : Nat) (a b : Word) : crcShiftN n (a ^^^ b) = crcShiftN n a ^^^ crcShiftN n b := by
  induction n generalizing a b with
  | zero => rfl
  | succ n ih => rw [crcShiftN, crcShift_xor, ih]; rfl

theorem crcShiftN_add (m n : Nat) (a : Word) : crcShiftN (m + n) a = crcShiftN n (crcShiftN m a) := by
  induction m generalizing a with
  | zero => simp [crcShiftN]
  | succ m ih => rw [Nat.succ_add, crcShiftN, ih]; rfl

/-- No shift loses anything: only zero goes to zero. -/
theorem crcShift_eq_zero {a : Word} (h : crcShift a = 0) : a = 0 := by
  unfold crcShift at h
  have h0 : a.getLsbD 15 = false := by
    by_contra hc
    rw [if_pos (by simpa using hc)] at h
    have := congrArg (·.getLsbD 0) h
    simp at this
  rw [if_neg (by rw [h0]; decide)] at h
  apply BitVec.eq_of_getLsbD_eq
  intro i hi
  have := congrArg (·.getLsbD (i + 1)) h
  simp at this
  by_cases hi' : i = 15
  · subst hi'; simpa using h0
  · simpa using this (by omega)

theorem crcShiftN_eq_zero {n : Nat} {a : Word} (h : crcShiftN n a = 0) : a = 0 := by
  induction n generalizing a with
  | zero => exact h
  | succ n ih => exact crcShift_eq_zero (ih h)

@[simp] theorem crcShiftN_zero (n : Nat) : crcShiftN n 0 = 0 := by
  induction n with
  | zero => rfl
  | succ n ih => exact ih

/-- Eight shifts of a byte in the low half only move it up. -/
theorem crcShiftN_low (b : Byte) : crcShiftN 8 (zext16 b) = zext16 b <<< 8 := by
  revert b; decide

/-! ## The two bytes of a number in the register -/

theorem word_eq_bytes (c : Word) : c = (zext16 (highByte c) <<< 8) ^^^ zext16 (lowByte c) := by
  apply BitVec.eq_of_getLsbD_eq
  intro i hi
  simp only [zext16, highByte, lowByte, BitVec.getLsbD_xor, BitVec.getLsbD_shiftLeft, BitVec.truncate_eq_setWidth,
    BitVec.getLsbD_setWidth, BitVec.getLsbD_extractLsb']
  by_cases h : i < 8
  · simp [h, hi]
  · simp [h, hi, show 8 + (i - 8) = i by omega, show i - 8 < 16 by omega, show i - 8 < 8 by omega]

theorem zext16_xor (a b : Byte) : zext16 (a ^^^ b) = zext16 a ^^^ zext16 b := by
  apply BitVec.eq_of_getLsbD_eq
  intro i hi
  simp [zext16]

/-- Shifting by eight keeps the low byte only. -/
theorem shiftLeft_eight (c : Word) : c <<< 8 = zext16 (lowByte c) <<< 8 := by
  apply BitVec.eq_of_getLsbD_eq
  intro i hi
  simp only [zext16, lowByte, BitVec.getLsbD_shiftLeft, BitVec.truncate_eq_setWidth, BitVec.getLsbD_setWidth,
    BitVec.getLsbD_extractLsb']
  by_cases h : i < 8
  · simp [h]
  · simp [h, hi, show i - 8 < 16 by omega, show i - 8 < 8 by omega]

end Sys2Proof.Machine
end

