-- ==== Sys2Proof/Laws/Decode.lean ====
section
/-! SUPPORT. The fields of a word that is put together from its two bytes (R50), and what a command without operand decodes
from (R54). -/

namespace Sys2Proof

@[simp] theorem opField_append (op imm : Byte) : opField (op ++ imm) = op := by
  apply BitVec.eq_of_getLsbD_eq
  intro i hi
  simp only [opField, BitVec.getLsbD_extractLsb', BitVec.getLsbD_append, hi, decide_true, Bool.true_and]
  simp

@[simp] theorem immField_append (op imm : Byte) : immField (op ++ imm) = imm := by
  apply BitVec.eq_of_getLsbD_eq
  intro i hi
  simp only [immField, BitVec.getLsbD_extractLsb', BitVec.getLsbD_append, hi, decide_true, Bool.true_and]
  simp [hi]

/-- A word is its two fields. -/
theorem opField_append_immField (w : Word) : opField w ++ immField w = w := by
  apply BitVec.eq_of_getLsbD_eq
  intro i hi
  simp only [opField, immField, BitVec.getLsbD_append, BitVec.getLsbD_extractLsb']
  rcases Nat.lt_or_ge i 8 with h | h
  · simp [h]
  · simp [show ¬ i < 8 by omega, show i - 8 < 8 by omega, show 8 + (i - 8) = i by omega]

theorem decodeNoOperand_eq_command {i j : Instr} {imm : Byte} (h : decodeNoOperand i imm = .command j) :
    j = i ∧ imm = 0 := by
  unfold decodeNoOperand at h
  split at h
  · cases h; exact ⟨rfl, ‹_›⟩
  · cases h

theorem decodeSetmode_eq_command {j : Instr} {imm : Byte} (h : decodeSetmode imm = .command j) :
    j = .setmode imm ∧ imm.toNat ≤ 1 := by
  unfold decodeSetmode at h
  split at h
  · cases h; exact ⟨rfl, ‹_›⟩
  · cases h

end Sys2Proof
end

