-- ==== Sys2Proof/Laws/Engines.lean ====
section
/-! SUPPORT. Said once, what the shared operations of the engines do to their sessions. -/

namespace Sys2Proof.Machine

variable (c : HostConfig) (r : Receiver) (kind : HostError)

@[simp] theorem Receiver.blockError_sent : (r.blockError c kind).sent = r.sent ++ [Config.nak] := by
  simp only [Receiver.blockError]; split <;> rfl

@[simp] theorem Receiver.blockError_errorCount : (r.blockError c kind).errorCount = r.errorCount + 1 := by
  simp only [Receiver.blockError]; split <;> rfl

@[simp] theorem Receiver.blockError_sink : (r.blockError c kind).sink = r.sink := by
  simp only [Receiver.blockError]; split <;> rfl

@[simp] theorem Receiver.blockError_held : (r.blockError c kind).held = r.held := by
  simp only [Receiver.blockError]; split <;> rfl

@[simp] theorem Receiver.blockError_expected : (r.blockError c kind).expected = r.expected := by
  simp only [Receiver.blockError]; split <;> rfl

@[simp] theorem Receiver.blockError_partialFrame : (r.blockError c kind).partialFrame = [] := by
  simp only [Receiver.blockError]; split <;> rfl

theorem Receiver.blockError_phase :
    (r.blockError c kind).phase = if c.maxErrors < r.errorCount + 1 then .aborted kind else r.phase := by
  simp only [Receiver.blockError]; split <;> rfl

@[simp] theorem Receiver.unflushed_markFlushed : r.markFlushed.unflushed = none := by
  simp only [Receiver.unflushed, Receiver.markFlushed]; cases r.held <;> rfl

/-- What has been flushed is not flushed again (N11). -/
@[simp] theorem Receiver.unflushed_flushWhole : r.flushWhole.unflushed = none := r.unflushed_markFlushed

@[simp] theorem Receiver.flushWhole_sink : r.flushWhole.sink = r.sink ++ r.unflushed.getD [] := rfl

/-- A match holds its payload, whatever was held (R139). -/
theorem Receiver.hold_held (p : List Byte) (isNew : Bool) :
    (r.hold p isNew).held = some { payload := p, flushed := !isNew && (r.held.map Held.flushed).getD false } := rfl

/-- The window comes before the pair (C4). -/
theorem classifySequence_cases (expected seq : Byte) (pair : Bool) :
    (seq ≠ expected ∧ seq ≠ expected - 1 ∧ classifySequence expected seq pair = .outOfWindow) ∨
      ((seq = expected ∨ seq = expected - 1) ∧ pair = false ∧ classifySequence expected seq pair = .corrupt) ∨
      (seq = expected ∧ pair = true ∧ classifySequence expected seq pair = .newBlock) ∨
      (seq ≠ expected ∧ seq = expected - 1 ∧ pair = true ∧ classifySequence expected seq pair = .duplicate) := by
  unfold classifySequence
  by_cases hn : seq = expected <;> by_cases hd : seq = expected - 1 <;> cases pair <;> simp_all

/-- A transmission leaves the engine transferring, or awaiting the ACK of its EOT (R147, R158). -/
theorem Sender.transmit_phase (t : Sender) :
    t.transmit.phase = if t.eotSent then .eotPending else .transferring := rfl

@[simp] theorem Sender.begin_phase (t : Sender) : t.begin.phase = .negotiating := rfl

end Sys2Proof.Machine
end

