-- ==== Sys2Proof/Laws/Exec.lean ====
section
/-! SUPPORT. Said once, what each guarded meaning can do, and what any command can do: it answers `ok` and leaves `ERR`, the
inputs and the epoch alone, or it takes a fault. -/

namespace Sys2Proof.Machine

theorem execBsum_cases (s : State) :
    (s.plen.toNat = 128 ∧
        execBsum s = .next ((s.setSum (checksum s.payload)).answered (zext16 (checksum s.payload)))) ∨
      (s.plen.toNat ≠ 128 ∧ execBsum s = .next (s.faulted .invalidBlockSize)) := withPayload_cases s _

theorem execBcrc_cases (s : State) :
    (s.plen.toNat = 128 ∧ execBcrc s = .next ((s.setCrc (crc16 s.payload)).answered (crc16 s.payload))) ∨
      (s.plen.toNat ≠ 128 ∧ execBcrc s = .next (s.faulted .invalidBlockSize)) := withPayload_cases s _

theorem execPtrim_cases (s : State) :
    (s.plen.toNat = 128 ∧ execPtrim s = .next (s.answered (BitVec.ofNat 16 (trimLen s.payload)))) ∨
      (s.plen.toNat ≠ 128 ∧ execPtrim s = .next (s.faulted .invalidBlockSize)) := withPayload_cases s _

/-- The state `PACK` leaves, less the response. -/
def packed (q : Byte) (s : State) : State :=
  (s.setValidator s.payload).setFrame (s.fbuf.writeAll 0 (frame s.mode q s.payload)) (BitVec.ofNat 8 (frameLen s.mode))

theorem execPack_cases (q : Byte) (s : State) :
    (s.plen.toNat = 128 ∧
        execPack q s = .next ((packed q s).answered (zext16 (BitVec.ofNat 8 (frameLen s.mode))))) ∨
      (s.plen.toNat ≠ 128 ∧ execPack q s = .next (s.faulted .invalidBlockSize)) := withPayload_cases s _

/-- The state `UNPACK` leaves, less the response. -/
def unpacked (s : State) : State :=
  ((s.setValidator s.framePayload).setPayload (s.pbuf.writeAll 0 s.framePayload) 128).setUnpacked (s.byteAt .frame 1)
    s.unpackStat

theorem execUnpack_cases (s : State) :
    (s.flen.toNat = frameLen s.mode ∧ execUnpack s = .next ((unpacked s).answered (s.unpackStat.zeroExtend 16))) ∨
      (s.flen.toNat ≠ frameLen s.mode ∧ execUnpack s = .next (s.faulted .invalidFrameSize)) := by
  unfold execUnpack
  by_cases h : s.flen.toNat = frameLen s.mode
  · exact .inl ⟨h, if_pos h⟩
  · exact .inr ⟨h, if_neg h⟩

theorem execSetmode_cases (m : Byte) (s : State) :
    (m.toNat ≤ 1 ∧ execSetmode m s = .next ((s.setMode (Mode.ofOperand m)).answered 0)) ∨
      (1 < m.toNat ∧ execSetmode m s = .next (s.faulted .illegalCommand)) := by
  unfold execSetmode
  by_cases h : 1 < m.toNat
  · exact .inr ⟨h, if_pos h⟩
  · exact .inl ⟨by omega, if_neg h⟩

theorem execPpad_cases (s : State) :
    (s.plen.toNat < 128 ∧ execPpad s = .next ((s.setPayload (padCells s.pbuf s.plen) 128).answered 0)) ∨
      (128 ≤ s.plen.toNat ∧ execPpad s = .next (s.answered 0)) := by
  unfold execPpad
  by_cases h : s.plen.toNat < Config.payloadLen
  · exact .inl ⟨h, if_pos h⟩
  · exact .inr ⟨Nat.le_of_not_lt h, if_neg h⟩

/-- The parts of the state that no command writes but by a fault. -/
def SameBackground (s t : State) : Prop := t.err = s.err ∧ t.pending = s.pending ∧ t.epoch = s.epoch

theorem SameBackground.refl (s : State) : SameBackground s s := ⟨rfl, rfl, rfl⟩

theorem SameBackground.packed (q : Byte) (s : State) : SameBackground s (packed q s) := by
  simp [SameBackground, Machine.packed]

theorem SameBackground.unpacked (s : State) : SameBackground s (unpacked s) := by
  simp [SameBackground, Machine.unpacked]

/-- Every command, in every state, answers `ok` over a state with the same background, or takes a fault (R172). -/
theorem exec_cases (i : Instr) (s : State) :
    (∃ (u : State) (d : Word), SameBackground s u ∧ exec i s = .next (u.answered d)) ∨
      ∃ f : BlockFault, exec i s = .next (s.faulted f) := by
  cases i with
  | bsum =>
    rcases execBsum_cases s with ⟨-, h⟩ | ⟨-, h⟩
    exacts [.inl ⟨s.setSum (checksum s.payload), _, ⟨rfl, rfl, rfl⟩, h⟩, .inr ⟨_, h⟩]
  | bcrc =>
    rcases execBcrc_cases s with ⟨-, h⟩ | ⟨-, h⟩
    exacts [.inl ⟨s.setCrc (crc16 s.payload), _, ⟨rfl, rfl, rfl⟩, h⟩, .inr ⟨_, h⟩]
  | ptrim =>
    rcases execPtrim_cases s with ⟨-, h⟩ | ⟨-, h⟩
    exacts [.inl ⟨_, _, .refl s, h⟩, .inr ⟨_, h⟩]
  | pack q =>
    rcases execPack_cases q s with ⟨-, h⟩ | ⟨-, h⟩
    exacts [.inl ⟨_, _, .packed q s, h⟩, .inr ⟨_, h⟩]
  | unpack =>
    rcases execUnpack_cases s with ⟨-, h⟩ | ⟨-, h⟩
    exacts [.inl ⟨_, _, .unpacked s, h⟩, .inr ⟨_, h⟩]
  | setmode m =>
    rcases execSetmode_cases m s with ⟨-, h⟩ | ⟨-, h⟩
    exacts [.inl ⟨s.setMode (Mode.ofOperand m), _, ⟨rfl, rfl, rfl⟩, h⟩, .inr ⟨_, h⟩]
  | ppad =>
    rcases execPpad_cases s with ⟨-, h⟩ | ⟨-, h⟩
    exacts [.inl ⟨s.setPayload (padCells s.pbuf s.plen) 128, _, ⟨rfl, rfl, rfl⟩, h⟩, .inl ⟨_, _, .refl s, h⟩]
  | prd n =>
    rcases readIndexed_cases .payload n s with ⟨-, h⟩ | ⟨-, h⟩
    exacts [.inl ⟨_, _, .refl s, h⟩, .inr ⟨_, h⟩]
  | frd n =>
    rcases readIndexed_cases .frame n s with ⟨-, h⟩ | ⟨-, h⟩
    exacts [.inl ⟨_, _, .refl s, h⟩, .inr ⟨_, h⟩]
  | sumclr => exact .inl ⟨s.setSum 0x00, 0, ⟨rfl, rfl, rfl⟩, rfl⟩
  | sumadd b => exact .inl ⟨s.setSum (sumStep s.sum b), 0, ⟨rfl, rfl, rfl⟩, rfl⟩
  | crcclr => exact .inl ⟨s.setCrc Config.crcInit, 0, ⟨rfl, rfl, rfl⟩, rfl⟩
  | crcupd b => exact .inl ⟨s.setCrc (crcStep s.crc b), 0, ⟨rfl, rfl, rfl⟩, rfl⟩
  | pclr => exact .inl ⟨s.setPayload s.pbuf 0, 0, ⟨rfl, rfl, rfl⟩, rfl⟩
  | pwr b =>
    exact .inl ⟨s.setPayload (appendCell .payload s.pbuf s.plen b) (bumpCount s.plen), 0, ⟨rfl, rfl, rfl⟩, rfl⟩
  | fclr => exact .inl ⟨s.setFrame s.fbuf 0, 0, ⟨rfl, rfl, rfl⟩, rfl⟩
  | fwr b =>
    exact .inl ⟨s.setFrame (appendCell .frame s.fbuf s.flen b) (bumpCount s.flen), 0, ⟨rfl, rfl, rfl⟩, rfl⟩
  | sumrd => exact .inl ⟨s, _, .refl s, rfl⟩
  | crcrd => exact .inl ⟨s, _, .refl s, rfl⟩
  | plenrd => exact .inl ⟨s, _, .refl s, rfl⟩
  | flenrd => exact .inl ⟨s, _, .refl s, rfl⟩
  | seqrd => exact .inl ⟨s, _, .refl s, rfl⟩
  | statrd => exact .inl ⟨s, _, .refl s, rfl⟩
  | moderd => exact .inl ⟨s, _, .refl s, rfl⟩
  | errrd => exact .inl ⟨s, _, .refl s, rfl⟩

end Sys2Proof.Machine
end

