-- ==== Sys2Proof/Laws/PerInstr.lean ====
section
/-! SUPPORT. A statement about every command as syntax, one lemma per constructor: the word of a well-formed command is of
the command's row of the opcode map (R52), with the row's opcode in its high byte and the operand in its low byte (R50). -/

namespace Sys2Proof.Laws.OpcodeRowMatch

/-- The word of a well-formed command is of its row of R52. -/
def Statement (i : Instr) : Prop :=
  i.wellFormed = true → i.row.covers (encode i) = true ∧ opField (encode i) = i.opcode ∧ immField (encode i) = i.operand

theorem sumclr : Statement .sumclr := by unfold Statement; decide
theorem sumadd (imm : Byte) : Statement (.sumadd imm) := by unfold Statement; revert imm; decide
theorem sumrd : Statement .sumrd := by unfold Statement; decide
theorem bsum : Statement .bsum := by unfold Statement; decide
theorem crcclr : Statement .crcclr := by unfold Statement; decide
theorem crcupd (imm : Byte) : Statement (.crcupd imm) := by unfold Statement; revert imm; decide
theorem crcrd : Statement .crcrd := by unfold Statement; decide
theorem bcrc : Statement .bcrc := by unfold Statement; decide
theorem pclr : Statement .pclr := by unfold Statement; decide
theorem pwr (imm : Byte) : Statement (.pwr imm) := by unfold Statement; revert imm; decide
theorem ppad : Statement .ppad := by unfold Statement; decide
theorem prd (imm : Byte) : Statement (.prd imm) := by unfold Statement; revert imm; decide
theorem plenrd : Statement .plenrd := by unfold Statement; decide
theorem ptrim : Statement .ptrim := by unfold Statement; decide
theorem setmode (imm : Byte) : Statement (.setmode imm) := by unfold Statement; revert imm; decide
theorem pack (imm : Byte) : Statement (.pack imm) := by unfold Statement; revert imm; decide
theorem unpack : Statement .unpack := by unfold Statement; decide
theorem fclr : Statement .fclr := by unfold Statement; decide
theorem fwr (imm : Byte) : Statement (.fwr imm) := by unfold Statement; revert imm; decide
theorem frd (imm : Byte) : Statement (.frd imm) := by unfold Statement; revert imm; decide
theorem flenrd : Statement .flenrd := by unfold Statement; decide
theorem seqrd : Statement .seqrd := by unfold Statement; decide
theorem statrd : Statement .statrd := by unfold Statement; decide
theorem moderd : Statement .moderd := by unfold Statement; decide
theorem errrd : Statement .errrd := by unfold Statement; decide

end Sys2Proof.Laws.OpcodeRowMatch
end

