-- ==== Sys2Proof/Tests/Slice0.lean ====
section
/-! SUPPORT. Small tests, each of one step or one function on a small state; the expected results are those of
spec/95_test_vectors.md or of the examples in the rules named. Then a witness for the premises of every statement. -/

namespace Sys2Proof.Tests

open Sys2Proof.Machine

/-! ## Builders -/

/-- A buffer that holds these bytes from index 0. -/
def cellsOf (p : List Byte) : Memory := Memory.writeAll [] 0 p

/-- The reset state with these bytes in `PBUF`, `PLEN` being their number. -/
def holding (p : List Byte) : State := State.reset.setPayload (cellsOf p) (BitVec.ofNat 8 p.length)

/-- The reset state with these bytes in `FBUF` and a mode. -/
def framed (m : Mode) (f : List Byte) : State := (State.reset.setFrame (cellsOf f) (BitVec.ofNat 8 f.length)).setMode m

/-- The 14 bytes of "Hello, XMODEM!". -/
def hello : List Byte := [0x48, 0x65, 0x6C, 0x6C, 0x6F, 0x2C, 0x20, 0x58, 0x4D, 0x4F, 0x44, 0x45, 0x4D, 0x21]

/-- The payload of program P1: "Hello, XMODEM!" padded to 128 bytes. -/
def helloPayload : List Byte := hello ++ List.replicate 114 0x1A

/-- The frame of program P1, with byte 3 as given. -/
def helloFrameSum (b3 : Byte) : List Byte := [0x01, 0x01, 0xFE, b3] ++ helloPayload.drop 1 ++ [0xBF]

/-- The frame of program P2, with the first three bytes and the last as given. -/
def helloFrameCrc (soh q k lo : Byte) : List Byte := [soh, q, k] ++ helloPayload ++ [0xAA, lo]

/-- The response of a command. -/
def answer (i : Instr) (s : State) : Option Response := (nextOf (exec i s)).bind State.response

/-- A fact of the state a command leaves. -/
def after {α : Type} (i : Instr) (s : State) (f : State → α) : Option α := (nextOf (exec i s)).map f

/-! ## Well-formedness and decoding -/

/-- The one check of WellFormed refuses SETMODE 2 (R54). -/
theorem test_wellFormed_refuses_mode_two : (Instr.setmode 2).wellFormed = false := by decide

theorem test_wellFormed_admits_modes : (Instr.setmode 0).wellFormed = true ∧ (Instr.setmode 1).wellFormed = true := by decide

/-- One word of each family, written out bit by bit from R50 and R52. -/
theorem test_decode_families :
    decode 0b0001000111111111 = .command (.sumadd 0xFF) ∧ decode 0b0010000100110001 = .command (.crcupd 0x31) ∧
    decode 0b0011001101111111 = .command (.prd 127) ∧ decode 0b0100000110000000 = .command (.pack 0x80) ∧
    decode 0b0101000000000000 = .command .errrd := by decide

/-- Every constructor's word, from the table of R52. -/
theorem test_decode_no_operand :
    decode 0x1000 = .command .sumclr ∧ decode 0x1200 = .command .sumrd ∧ decode 0x1300 = .command .bsum ∧
    decode 0x2000 = .command .crcclr ∧ decode 0x2200 = .command .crcrd ∧ decode 0x2300 = .command .bcrc ∧
    decode 0x3000 = .command .pclr ∧ decode 0x3200 = .command .ppad ∧ decode 0x3400 = .command .plenrd ∧
    decode 0x3500 = .command .ptrim ∧ decode 0x4200 = .command .unpack ∧ decode 0x4300 = .command .fclr ∧
    decode 0x4600 = .command .flenrd ∧ decode 0x4700 = .command .seqrd ∧ decode 0x4800 = .command .statrd ∧
    decode 0x4900 = .command .moderd ∧ decode 0x5000 = .command .errrd := by decide

theorem test_decode_operand :
    decode 0x1139 = .command (.sumadd 0x39) ∧ decode 0x21FF = .command (.crcupd 0xFF) ∧
    decode 0x3148 = .command (.pwr 0x48) ∧ decode 0x3380 = .command (.prd 0x80) ∧
    decode 0x4000 = .command (.setmode 0) ∧ decode 0x4001 = .command (.setmode 1) ∧
    decode 0x41FF = .command (.pack 0xFF) ∧ decode 0x4401 = .command (.fwr 0x01) ∧
    decode 0x4583 = .command (.frd 0x83) := by decide

/-- The refusals of spec/95_test_vectors.md section 2.6 and 2.1. -/
theorem test_decode_refusals :
    decode 0x0000 = .reject .unassignedOpcode ∧ decode 0xFFFF = .reject .unassignedOpcode ∧
    decode 0x1400 = .reject .unassignedOpcode ∧ decode 0x4A00 = .reject .unassignedOpcode ∧
    decode 0x5100 = .reject .unassignedOpcode ∧ decode 0x1001 = .reject .operandNotZero ∧
    decode 0x5001 = .reject .operandNotZero ∧ decode 0x4002 = .reject .modeAboveOne ∧
    decode 0x40FF = .reject .modeAboveOne := by decide

/-- The map has 25 rows with 25 different opcodes (R52). -/
theorem test_opcodeMap : opcodeMap.length = 25 ∧ (opcodeMap.map fun r => opField r.pattern).Nodup := by decide

/-- The generated table is the listing of R75 (G1). -/
theorem test_crcTable_listing : (List.range 256).map (fun i => crcTable (BitVec.ofNat 8 i)) = crcTableListing := by
  decide +kernel

/-! ## Checksum accumulator (95_test_vectors.md 2.1, 2.3) -/

theorem test_sumclr : after .sumclr { State.reset with sum := 0xBF } State.sum = some 0x00 := by decide
theorem test_sumadd_wraps : after (.sumadd 0x01) { State.reset with sum := 0xFF } State.sum = some 0x00 := by decide
theorem test_sumadd : after (.sumadd 0x39) { State.reset with sum := 0xDC } State.sum = some 0x15 := by decide
theorem test_sumrd : answer .sumrd { State.reset with sum := 0x80 } = some (.ok 0x0080) := by decide
theorem test_bsum_ones : answer .bsum (holding (List.replicate 128 0x01)) = some (.ok 0x0080) := by decide +kernel
theorem test_bsum_empty : answer .bsum State.reset = some (.fault .invalidBlockSize) := by decide

/-! ## CRC generator (95_test_vectors.md 2.2, 2.3) -/

theorem test_crcclr : after .crcclr { State.reset with crc := 0x31C3 } State.crc = some 0x0000 := by decide
theorem test_crcupd : after (.crcupd 0x56) { State.reset with crc := 0x1234 } State.crc = some 0x3C40 := by decide
theorem test_crcupd_ones : after (.crcupd 0x00) { State.reset with crc := 0xFFFF } State.crc = some 0xE1F0 := by decide
theorem test_crcrd : answer .crcrd { State.reset with crc := 0x31C3 } = some (.ok 0x31C3) := by decide
theorem test_bcrc_ones : answer .bcrc (holding (List.replicate 128 0x01)) = some (.ok 0x413F) := by decide +kernel
theorem test_bcrc_ramp :
    answer .bcrc (holding ((List.range 128).map (BitVec.ofNat 8))) = some (.ok 0xE80A) := by decide +kernel
theorem test_crc16_check_value : crc16 [0x31, 0x32, 0x33, 0x34, 0x35, 0x36, 0x37, 0x38, 0x39] = 0x31C3 := by decide +kernel
theorem test_crcStepBits : crcStepBits 0xABCD 0xEF = 0xC540 := by decide

/-! ## Payload buffer (95_test_vectors.md 2.4) -/

theorem test_pclr : after .pclr (holding [0x41]) (fun s => (s.plen, s.pbuf)) = some (0, [(0, 0x41)]) := by decide
theorem test_pwr : after (.pwr 0x48) (holding [0x41]) (fun s => (s.plen, s.pbuf)) = some (2, [(0, 0x41), (1, 0x48)]) := by
  decide
theorem test_pwr_full : after (.pwr 0x41) { State.reset with plen := 128 } (fun s => (s.plen, s.pbuf)) = some (129, []) := by
  decide
theorem test_ppad : after .ppad (holding hello) (fun s => (s.plen, s.pbuf.read? 13, s.pbuf.read? 14, s.pbuf.read? 127)) =
    some (128, some 0x21, some 0x1A, some 0x1A) := by decide +kernel
theorem test_ppad_too_long : after .ppad { State.reset with plen := 129 } (fun s => (s.plen, s.pbuf)) = some (129, []) := by
  decide
theorem test_prd : answer (.prd 13) (holding hello) = some (.ok 0x0021) := by decide
theorem test_prd_beyond : answer (.prd 14) (holding hello) = some (.fault .indexOutOfRange) := by decide
theorem test_plenrd : answer .plenrd { State.reset with plen := 129 } = some (.ok 129) := by decide
theorem test_ptrim : answer .ptrim (holding helloPayload) = some (.ok 14) := by decide +kernel
theorem test_ptrim_all_filler : answer .ptrim (holding (List.replicate 128 0x1A)) = some (.ok 0) := by decide +kernel

/-! ## Framer (95_test_vectors.md 2.5, P1 to P3) -/

theorem test_setmode : after (.setmode 1) State.reset State.mode = some .crc := by decide
theorem test_setmode_two : answer (.setmode 2) State.reset = some (.fault .illegalCommand) := by decide
theorem test_moderd : answer .moderd { State.reset with mode := .crc } = some (.ok 1) := by decide
theorem test_pack_sum : after (.pack 1) (holding helloPayload) (fun s => (s.sum, s.flen, s.fbuf, s.crc)) =
    some (0xBF, 132, cellsOf (helloFrameSum 0x48), 0x0000) := by decide +kernel
theorem test_pack_crc :
    after (.pack 0xFF) ((holding helloPayload).setMode .crc) (fun s => (s.crc, s.flen, s.fbuf, s.sum)) =
      some (0xAA0D, 133, cellsOf (helloFrameCrc 0x01 0xFF 0x00 0x0D), 0x00) := by decide +kernel
theorem test_unpack_corrupt : after .unpack (framed .checksum (helloFrameSum 0x49))
    (fun s => (s.response, s.rseq, s.sum, s.plen)) = some (some (.ok 6), 0x01, 0xC0, 128) := by decide +kernel
theorem test_unpack_crc_pair : after .unpack (framed .crc (helloFrameCrc 0x01 0x80 0x80 0x0D))
    (fun s => (s.response, s.rseq, s.crc, s.sum)) = some (some (.ok 5), 0x80, 0xAA0D, 0x00) := by decide +kernel
theorem test_fclr : after .fclr (framed .crc [0x01]) (fun s => (s.flen, s.fbuf)) = some (0, [(0, 0x01)]) := by decide
theorem test_fwr : after (.fwr 0x01) State.reset (fun s => (s.flen, s.fbuf)) = some (1, [(0, 0x01)]) := by decide
theorem test_fwr_full : after (.fwr 0x41) { State.reset with flen := 255 } (fun s => (s.flen, s.fbuf)) = some (255, []) := by
  decide
theorem test_frd : answer (.frd 2) (framed .checksum (helloFrameSum 0x48)) = some (.ok 0x00FE) := by decide +kernel
theorem test_frd_beyond : answer (.frd 132) (framed .checksum (helloFrameSum 0x48)) = some (.fault .indexOutOfRange) := by
  decide +kernel
theorem test_flenrd : answer .flenrd { State.reset with flen := 133 } = some (.ok 133) := by decide
theorem test_seqrd : answer .seqrd { State.reset with rseq := 0x01 } = some (.ok 0x0001) := by decide
theorem test_statrd : answer .statrd { State.reset with stat := 0b110 } = some (.ok 0x0006) := by decide

/-! ## System, faults, the step (95_test_vectors.md 2.6, P5) -/

theorem test_errrd : answer .errrd { State.reset with err := 0b1101 } = some (.ok 0x000D) := by decide
theorem test_fault_sets_its_bit : after .unpack { State.reset with err := 0b0001 } State.err = some 0b0011 := by decide
theorem test_step_priority : (nextOf (step (State.reset.withFetchWord 16 0x1301))).map (fun s => (s.err, s.response)) =
    some (0b1000, some (.fault .illegalCommand)) := by decide
theorem test_step_runs : (nextOf (step (State.reset.withFetchWord 16 0x3141))).map (fun s => (s.plen, s.pending)) =
    some (1, []) := by decide
theorem test_step_reset :
    (nextOf (step { holding hello with err := 0b1111, pending := [.reset, .command 0x3400] })).map
      (fun s => (s.plen, s.err, s.pending)) = some (0, 0, [.command 0x3400]) := by decide

/-! ## Assembler and engines (R57, R58, 45_host_protocol.md) -/

theorem test_assemble_operand : assembleLine "PWR 0x48 ; a comment".toList = some [0x3148] ∧
    assembleLine "PWR 'H'".toList = some [0x3148] ∧ assembleLine "PRD 127".toList = some [0x337F] ∧
    assembleLine "BSUM".toList = some [0x1300] := by decide +kernel
/-- Quoted characters that the syntax uses itself: the single quote (the model's form, log 15), `;` and `,`. -/
theorem test_assemble_quotes : assembleLine ("PWR ".toList ++ [asmTick, asmTick, asmTick, ' ', ';', 'c']) = some [0x3127] ∧
    assembleLine ("FLOAD ".toList ++ [asmTick, asmTick, asmTick, ',', ' ', asmTick, ';', asmTick, ',', asmQuote, ',',
      asmQuote]) = some [0x4300, 0x4427, 0x443B, 0x442C] := by decide +kernel
theorem test_assemble_pseudo :
    assembleLine ("PLOADPAD ".toList ++ [asmQuote, 'H', 'i', asmQuote]) = some [0x3000, 0x3148, 0x3169, 0x3200] := by
  decide +kernel
/-- A string that holds a double quote is refused (the model's form, log 15). -/
theorem test_assemble_quote_in_string :
    assembleLine ("PLOAD ".toList ++ [asmQuote, 'a', asmQuote, 'b', asmQuote]) = none := by decide +kernel
/-- A flush marks what it flushes, and does not flush it again (R137, N11). -/
theorem test_flush_once : ({ Receiver.start {} with held := some ⟨hello, false⟩ } : Receiver).flushWhole.flushWhole.sink = hello := by
  decide
theorem test_receiver_noise :
    (Receiver.react {} ⟨true, true, true⟩ { Receiver.start {} with phase := .transferring } (.byte 0x55)).sent = [] := by decide
theorem test_sender_nak : ((Sender.start {} hello).begin.react ⟨true, true, true⟩ (.byte 0x15)).sent = helloFrameSum 0x48 := by
  decide +kernel

/-- An answer that holds a state is a next state. -/
theorem exists_next {r : Result} (h : (nextOf r).isSome = true) : ∃ t, r = .next t := by
  cases r with
  | next t => exact ⟨t, rfl⟩
  | fault f => exact nomatch f
  | refused f => cases h

/-! ## Witnesses: for every statement with premises, states and operands that meet them -/

/-- A state that awaits a command word, one that awaits reset, one that awaits an illegal word, and one without input. -/
theorem witness_StepRunsTheDecodedCommand :
    (State.reset.withFetchWord 16 0x1000).pending = [.command 0x1000] ∧ decode 0x1000 = .command .sumclr ∧
    (State.reset.withFetchWord 16 0xFFFF).pending = [.command 0xFFFF] ∧ decode 0xFFFF = .reject .unassignedOpcode ∧
    State.reset.pending = [] := by decide

theorem witness_ResetLeavesTheStatedValues :
    ∃ r s : State, r.pending = [.reset] ∧ step r = .next s := ⟨{ State.reset with pending := [.reset] }, _, rfl, rfl⟩

theorem witness_EveryInputIsAnswered : (State.reset.withFetchWord 16 0x4000).pending = [.command 0x4000] := by decide

theorem witness_DecodeOfEncode : (Instr.setmode 1).wellFormed = true ∧ (Instr.pack 0xFF).wellFormed = true := by decide

theorem witness_EncodeOfDecode : decode 0x4001 = .command (.setmode 1) := by decide

/-- Legal and illegal words where the clauses of LegalWord meet. -/
theorem witness_LegalWordsAreTheCommands :
    LegalWord 0x11 0xFF ∧ LegalWord 0x10 0x00 ∧ LegalWord 0x50 0x00 ∧ LegalWord 0x40 0x01 ∧
    ¬ LegalWord 0x40 0x02 ∧ ¬ LegalWord 0x10 0x01 ∧ ¬ LegalWord 0x51 0x00 := by
  simp [LegalWord]

theorem witness_OpcodeMapAgreesWithDecode :
    (Instr.setmode 0).row ∈ opcodeMap ∧ (Instr.setmode 0).row.covers 0x4001 = true ∧
    decode 0x4001 = .command (.setmode 1) := by decide

/-- The premise of TakesNoOperand: an operand that is not zero. -/
theorem witness_TakesNoOperand : (0x01 : Byte) ≠ 0 := by decide

theorem witness_ClearCommandsClear : (nextOf (exec .pclr State.reset)).isSome = true ∧
    (nextOf (exec .fclr State.reset)).isSome = true := by decide

theorem witness_ChecksumLaws :
    [0x01, (0x02 : Byte)].Perm [0x02, 0x01] ∧ 1 < [0x01, (0x02 : Byte)].length ∧ (0 : Nat) ≠ 1 ∧ (0x80 : Byte) ≠ 0 := by
  decide

theorem witness_whole_payload_commands : (holding helloPayload).plen = 128 ∧ State.reset.plen ≠ 128 ∧
    (holding (List.replicate 127 0)).plen ≠ 128 ∧ ({ State.reset with plen := 129 } : State).plen ≠ 128 := by decide +kernel

theorem witness_CrcLaws : [0x12, (0x34 : Byte)].length = [0xAB, (0xCD : Byte)].length ∧
    0 < [(0x12 : Byte)].length ∧ 7 < 8 := by decide

theorem witness_PpadFillsWithTheFiller : State.reset.plen.toNat < 128 ∧
    ({ State.reset with plen := 127 } : State).plen.toNat < 128 ∧
    128 ≤ ({ State.reset with plen := 128 } : State).plen.toNat := by decide

/-- The last valid index and the first invalid one of each buffer. -/
theorem witness_IndexedReadsReadValidBytes :
    (127 : Byte).toNat < min ({ State.reset with plen := 128 } : State).plen.toNat 128 ∧
    min ({ State.reset with plen := 129 } : State).plen.toNat 128 ≤ (128 : Byte).toNat ∧
    (132 : Byte).toNat < min ({ State.reset with flen := 133 } : State).flen.toNat 133 ∧
    min ({ State.reset with flen := 134 } : State).flen.toNat 133 ≤ (133 : Byte).toNat ∧
    (holding hello).pbuf.read? (13 : Byte).toNat = some 0x21 ∧
    (framed .checksum (helloFrameSum 0x48)).fbuf.read? (131 : Byte).toNat = some 0xBF := by decide +kernel

theorem witness_PadThenTrimGivesTheLength :
    hello.length ≤ 128 ∧ hello.getLast? ≠ some 0x1A ∧ hello.length + 114 ≤ 128 ∧
    ([] : List Byte).length ≤ 128 ∧ ([] : List Byte).getLast? ≠ some 0x1A := by decide

theorem witness_exec_answers (i : Instr) (h : i = .pclr ∨ i = .pwr 0 ∨ i = .ppad ∨ i = .fclr ∨ i = .fwr 0 ∨ i = .bsum) :
    (nextOf (exec i State.reset)).isSome = true := by
  rcases h with rfl | rfl | rfl | rfl | rfl | rfl <;> decide

theorem witness_SetmodeSelectsTheMode : 1 < (0x02 : Byte).toNat ∧ 1 < (0xFF : Byte).toNat := by decide

/-- A frame of the right length in each mode, and wrong lengths on both sides. -/
theorem witness_UnpackParsesTheFrame :
    (framed .checksum (helloFrameSum 0x48)).flen.toNat = frameLen .checksum ∧
    (framed .crc (helloFrameCrc 1 0xFF 0 0x0D)).flen.toNat = frameLen .crc ∧
    ({ State.reset with flen := 131 } : State).flen.toNat ≠ frameLen .checksum ∧
    (framed .crc (helloFrameSum 0x48)).flen.toNat ≠ frameLen .crc := by decide +kernel

theorem witness_PackBuildsTheFrame : (holding helloPayload).plen = 128 ∧ (holding helloPayload).mode = .checksum ∧
    ((holding helloPayload).setMode .crc).plen = 128 ∧ ((holding helloPayload).setMode .crc).mode = .crc := by
  decide +kernel

theorem witness_PackThenUnpackRoundTrips : (holding helloPayload).plen = 128 ∧
    State.reset.mode = (holding helloPayload).mode := by decide +kernel

theorem witness_ModeMismatchFaultsOnLength : ∃ t u : State, (holding helloPayload).plen = 128 ∧ (1 : Byte).toNat ≤ 1 ∧
    Mode.ofOperand 1 ≠ (holding helloPayload).mode ∧ exec (.pack 1) (holding helloPayload) = .next t ∧
    exec (.setmode 1) t = .next u := by
  obtain ⟨t, ht⟩ := exists_next (r := exec (.pack 1) (holding helloPayload)) (by decide +kernel)
  exact ⟨t, _, by decide +kernel, by decide, by decide +kernel, ht, rfl⟩

theorem witness_FaultsChangeOneErrBitOnly : ∃ t : State, runWord 0x1300 State.reset = .next t ∧
    t.response = some (.fault .invalidBlockSize) := by
  obtain ⟨t, ht⟩ := exists_next (r := runWord 0x1300 State.reset) (by decide)
  have hr : (nextOf (runWord 0x1300 State.reset)).bind State.response = some (.fault .invalidBlockSize) := by decide
  rw [ht] at hr
  exact ⟨t, ht, hr⟩

theorem witness_ErrIsSticky : ∃ t : State, step (State.reset.withFetchWord 16 0x0000) = .next t ∧
    ∀ rest, (State.reset.withFetchWord 16 0x0000).pending ≠ .reset :: rest :=
  ⟨_, rfl, by intro rest h; cases h⟩

theorem witness_OnlyTheListedCommandsWrite : (nextOf (exec (.sumadd 1) State.reset)).map State.sum = some 1 := by decide

theorem witness_ReadsAndIdempotentCommands :
    Instr.errrd ∈ [Instr.sumrd, .crcrd, .plenrd, .flenrd, .seqrd, .statrd, .moderd, .errrd, .ptrim] ∧
    Instr.unpack ∈ [Instr.pclr, .fclr, .sumclr, .crcclr, .ppad, .bsum, .bcrc, .unpack] ∧
    (nextOf (exec .errrd State.reset)).isSome = true ∧ (nextOf (exec .unpack State.reset)).isSome = true ∧
    (nextOf (exec (.pwr 0) State.reset)).isSome = true ∧ State.reset.plen.toNat < 255 ∧
    (nextOf (exec (.fwr 0) State.reset)).isSome = true ∧ State.reset.flen.toNat < 255 := by decide

theorem witness_InvariantKeptByEveryStep : (holding hello).Inv ∧ ∃ t, step (holding hello) = .next t :=
  ⟨by decide +kernel, _, rfl⟩

/-- Two states that differ in a byte that is not valid and in the epoch, and are alike. -/
theorem witness_AlikeStatesRespondAlike :
    State.reset.Alike { State.reset with pbuf := [(5, 0x77)], epoch := 3 } ∧
    ({ State.reset with pbuf := [(5, 0x77)], epoch := 3 } : State).pending = State.reset.pending :=
  ⟨⟨rfl, rfl, rfl, rfl, rfl, rfl, rfl, rfl, rfl, rfl⟩, rfl⟩

/-- A receiver in the main loop that awaits a command byte. -/
def listening : Receiver := { Receiver.start {} with phase := .transferring }

theorem witness_receiver_between_blocks : listening.phase = .transferring ∧ listening.partialFrame = [] ∧
    listening.block.mode = listening.mode ∧ helloPayload.length = 128 ∧ (0x55 : Byte) ≠ 0x01 ∧ (0x55 : Byte) ≠ 0x04 := by
  decide +kernel

theorem witness_ReceiverFinishesOnEot : ∃ r : Receiver, r.phase = .transferring ∧ r.partialFrame = [] ∧
    r.unflushed = some helloPayload ∧ ∀ p, r.unflushed = some p → p.length = 128 :=
  ⟨{ listening with held := some ⟨helloPayload, false⟩ }, rfl, rfl, rfl, by intro p hp; cases hp; rfl⟩

/-- The sequence byte at each side of each clause: the expected one, the one before it (0 is before 1, C2), outside. -/
theorem witness_ReceiverTestsTheSequence :
    ({ listening with partialFrame := [0x01, 0x01] } : Receiver).phase = .transferring ∧
    (0x01 : Byte).toNat + (0xFE : Byte).toNat = 255 ∧ listening.expected = 0x01 ∧
    (0x00 : Byte).toNat = (listening.expected.toNat + 255) % 256 ∧ (0x00 : Byte).toNat + (0xFF : Byte).toNat = 255 ∧
    (0x01 : Byte).toNat + (0xFF : Byte).toNat ≠ 255 ∧ (0x02 : Byte) ≠ listening.expected ∧
    (0x02 : Byte).toNat ≠ (listening.expected.toNat + 255) % 256 ∧
    (⟨false, false, false⟩ : HostChoices).readRestAfterBadPair = false ∧
    (⟨true, false, false⟩ : HostChoices).readRestAfterBadPair = true := by decide

theorem witness_ReceiverNegotiatesTheMode : ({} : HostConfig).mode = .checksum ∧ ({ mode := .crc } : HostConfig).mode = .crc ∧
    0 < ({ mode := .crc } : HostConfig).crcAttempts := by decide

/-- A sender that has loaded its first block. -/
def begun (source : List Byte) : Sender := (Sender.start {} source).begin

/-- A sender in INIT, with a block loaded, before EOT with an exhausted and with a filled source, and after EOT. -/
theorem witness_SenderReactsToResponses :
    (Sender.start {} hello).phase = .init ∧ (begun hello).phase = .negotiating ∧
    (begun hello).eotSent = false ∧ (begun hello).block.plen = 128 ∧ (begun hello).source = [] ∧
    (begun hello).current = 1 ∧ (begun (List.replicate 129 0)).source ≠ [] ∧
    (begun hello).sendEot.eotSent = true ∧ (begun hello).sendEot.phase = .eotPending ∧ (0x55 : Byte) ≠ 0x06 ∧
    (0x55 : Byte) ≠ 0x15 ∧ (0x55 : Byte) ≠ 0x43 := by decide +kernel

/-- The first wait after the legacy NAK. -/
theorem witness_ReceiverCountsTimeouts : ((Receiver.start {}).react {} ⟨true, true, true⟩ .timeout).phase = .negotiating ∧
    ((Receiver.start {}).react {} ⟨true, true, true⟩ .timeout).asked ≠ some .crc ∧ listening.phase = .transferring := by
  decide +kernel

/-- An invalid pair, and a wrong validator with a valid pair, in each mode. -/
theorem witness_ReceiverRefusesIncorrectFrames :
    listening.phase = .transferring ∧ listening.partialFrame = [] ∧ listening.block.mode = listening.mode ∧
    [(0xC0 : Byte)].length + 131 = frameLen .checksum ∧ [0xAA, (0x0C : Byte)].length + 131 = frameLen .crc ∧
    [0xC0] ≠ validatorBytes .checksum helloPayload ∧ [0xAA, 0x0C] ≠ validatorBytes .crc helloPayload ∧
    (0x01 : Byte) = listening.expected ∧ (0x00 : Byte).toNat = (listening.expected.toNat + 255) % 256 ∧
    (0x01 : Byte).toNat + (0xFE : Byte).toNat = 255 ∧ (0x01 : Byte).toNat + (0xFF : Byte).toNat ≠ 255 := by decide +kernel

theorem witness_PhasesOnlyAdvance : (begun hello).sendEot.phase = .eotPending ∧ (begun hello).sendEot.eotSent = true ∧
    Phase.terminal .done = true ∧ Phase.terminal (.aborted .syncError) = true := by decide +kernel

theorem witness_LosslessTransferDeliversTheSource : ([] : List Byte).getLast? ≠ some 0x1A ∧ hello.getLast? ≠ some 0x1A := by
  decide

end Sys2Proof.Tests
end

/-! ## The step by the host's next input (R3, R161), and the statement StepRunsTheDecodedCommand -/

namespace Sys2Proof.Machine

/-- With no input pending the block waits unchanged (log 4). -/
theorem step_of_pending_nil {s : State} (h : s.pending = []) : step s = .next s := by
  simp [step, State.takeInput?, h]

theorem step_of_pending_command {s : State} {w : Word} {rest : List HostInput} (h : s.pending = .command w :: rest) :
    step s = runWord w (s.setPending rest) := by
  simp [step, State.takeInput?, h]

theorem step_of_pending_reset {s : State} {rest : List HostInput} (h : s.pending = .reset :: rest) :
    step s = .next (s.setPending rest).resetEvent := by
  simp [step, State.takeInput?, h]

theorem runWord_of_decode_command {w : Word} {i : Instr} (h : decode w = .command i) (s : State) :
    runWord w s = exec i s := by
  simp [runWord, h]

theorem runWord_of_decode_reject {w : Word} {why : DecodeReject} (h : decode w = .reject why) (s : State) :
    runWord w s = raise .illegalCommand s := by
  simp [runWord, h]

theorem runSteps_succ_of_step {s u : State} (h : step s = .next u) (n : Nat) : runSteps (n + 1) s = runSteps n u := by
  simp [runSteps, h, nextOf]

/-- Settles O3: the step's equation for each kind of next input, joined with that of the decoder's answer. -/
theorem stepRunsTheDecodedCommand : Obligations.StepRunsTheDecodedCommand := by
  refine ⟨fun s w rest i hp hd => ?_, fun s w rest why hp hd => ?_, fun s hp => step_of_pending_nil hp⟩
  · rw [step_of_pending_command hp, runWord_of_decode_command hd]
    rfl
  · rw [step_of_pending_command hp, runWord_of_decode_reject hd]
    rfl

end Sys2Proof.Machine

/-! ## The lengths of a frame and the valid bytes of `FBUF` (R27, R49) -/

namespace Sys2Proof.Machine

theorem le_frameLen (m : Mode) : 132 ≤ frameLen m := by cases m <;> decide

/-- A frame's length is within `FBUF`, so with that fill count all of the frame is valid. -/
theorem validCount_frame_of_toNat_eq_frameLen {count : Byte} {m : Mode} (h : count.toNat = frameLen m) :
    validCount .frame count = frameLen m := by
  have hfits : frameLen m ≤ bufferSize .frame := by cases m <;> decide
  rw [validCount, h, Nat.min_eq_left hfits]

end Sys2Proof.Machine

/-! ## Buffers that agree below an index

An index that nothing has written reads as a default, the free value of log 1, which may differ between the two. -/

namespace Sys2Proof.Machine

/-- Below `n` the two buffers, each with its own default for what is unwritten, hold the same bytes. -/
def Memory.AgreeBelow (n : Nat) (m m' : Memory) (d d' : Nat → Byte) : Prop :=
  ∀ i < n, (m.read? i).getD (d i) = (m'.read? i).getD (d' i)

variable {n : Nat} {m m' : Memory} {d d' : Nat → Byte}

theorem Memory.AgreeBelow.mono (h : Memory.AgreeBelow n m m' d d') {k : Nat} (hk : k ≤ n) :
    Memory.AgreeBelow k m m' d d' := fun i hi => h i (hi.trans_le hk)

theorem Memory.AgreeBelow.zero : Memory.AgreeBelow 0 m m' d d' := fun _ hi => absurd hi (Nat.not_lt_zero _)

/-- The same bytes stored from `n` on extend the agreement up to where they end, whatever stood there. -/
theorem Memory.AgreeBelow.writeAll (h : Memory.AgreeBelow n m m' d d') (vs : List Byte) :
    Memory.AgreeBelow (n + vs.length) (m.writeAll n vs) (m'.writeAll n vs) d d' := by
  intro i hi
  rw [Memory.read?_writeAll, Memory.read?_writeAll]
  by_cases hin : n ≤ i
  · simp [hin, hi, show i - n < vs.length by omega]
  · simpa [hin] using h i (by omega)

/-- Buffers that are overwritten from index 0 on agree on the new bytes. -/
theorem Memory.AgreeBelow.writeAll_zero {vs : List Byte} (hn : n ≤ vs.length) :
    Memory.AgreeBelow n (m.writeAll 0 vs) (m'.writeAll 0 vs) d d' :=
  (Memory.AgreeBelow.zero.writeAll vs).mono (by omega)

/-- The store of `PWR` and `FWR` keeps the agreement on the valid bytes: below the buffer's size the new byte is the one
that becomes valid, and past it neither the cells nor the valid indices change (R91, R105). -/
theorem Memory.AgreeBelow.appendCell {b : Buffer} {count : Byte}
    (h : Memory.AgreeBelow (validCount b count) m m' d d') (v : Byte) :
    Memory.AgreeBelow (validCount b (bumpCount count)) (appendCell b m count v) (appendCell b m' count v) d d' := by
  by_cases hroom : count.toNat < bufferSize b
  · have hvalid : validCount b count = count.toNat := Nat.min_eq_left hroom.le
    rw [hvalid] at h
    simp only [Machine.appendCell, if_pos hroom]
    refine (h.writeAll [v]).mono ?_
    rw [validCount, toNat_bumpCount, List.length_singleton]
    omega
  · simp only [Machine.appendCell, if_neg hroom]
    refine h.mono ?_
    simp only [validCount]
    omega

end Sys2Proof.Machine

/-! ## Matched states: what the host can see is the same (R26, R27) -/

namespace Sys2Proof.Machine

/-- The two states agree on the ten items, the buffers on their valid indices only, and on the inputs and the response:
`State.Alike` with its clauses about the buffers said byte by byte (`State.matched_iff`), so that an operation that leaves a
buffer alone keeps its clause as it is. -/
structure State.Matched (s t : State) : Prop where
  sum : s.sum = t.sum
  crc : s.crc = t.crc
  mode : s.mode = t.mode
  plen : s.plen = t.plen
  flen : s.flen = t.flen
  rseq : s.rseq = t.rseq
  stat : s.stat = t.stat
  err : s.err = t.err
  pending : s.pending = t.pending
  response : s.response = t.response
  bytes : ∀ b, Memory.AgreeBelow (validCount b (s.count b)) (s.cells b) (t.cells b)
    (Config.unwritten s.epoch b) (Config.unwritten t.epoch b)

/-- For equal fill counts, the valid bytes are the same list when they are the same at each valid index. -/
theorem State.validBytes_eq_iff {s t : State} (b : Buffer) (hc : s.count b = t.count b) :
    s.validBytes b = t.validBytes b ↔ ∀ i < validCount b (s.count b), s.byteAt b i = t.byteAt b i := by
  simp only [State.validBytes, ← hc, State.bytesFrom_eq_iff, Nat.zero_add]

theorem State.matched_iff {s t : State} :
    s.Matched t ↔ s.Alike t ∧ s.pending = t.pending ∧ s.response = t.response := by
  constructor
  · intro h
    have hpbuf : s.validBytes .payload = t.validBytes .payload := (validBytes_eq_iff .payload h.plen).2 (h.bytes .payload)
    have hfbuf : s.validBytes .frame = t.validBytes .frame := (validBytes_eq_iff .frame h.flen).2 (h.bytes .frame)
    exact ⟨{ h with pbuf := hpbuf, fbuf := hfbuf }, h.pending, h.response⟩
  · rintro ⟨h, hpending, hresponse⟩
    exact { h with
      pending := hpending
      response := hresponse
      bytes := fun
        | .payload => (validBytes_eq_iff .payload h.plen).1 h.pbuf
        | .frame => (validBytes_eq_iff .frame h.flen).1 h.fbuf }

/-- Both answers are next states, and these are matched. -/
def MatchedAnswers (r r' : Result) : Prop := ∃ u v, r = .next u ∧ r' = .next v ∧ u.Matched v

namespace State.Matched

variable {s t : State}

/-! ### The operations on the registers and the interface -/

theorem setSum (h : s.Matched t) {v v' : Byte} (hv : v = v') : (s.setSum v).Matched (t.setSum v') :=
  { h with sum := hv }

theorem setCrc (h : s.Matched t) {v v' : Word} (hv : v = v') : (s.setCrc v).Matched (t.setCrc v') :=
  { h with crc := hv }

theorem setMode (h : s.Matched t) (m : Mode) : (s.setMode m).Matched (t.setMode m) :=
  { h with mode := rfl }

theorem setUnpacked (h : s.Matched t) {q q' : Byte} {x x' : BitVec 3} (hq : q = q') (hx : x = x') :
    (s.setUnpacked q x).Matched (t.setUnpacked q' x') :=
  { h with rseq := hq, stat := hx }

theorem setPending (h : s.Matched t) (rest : List HostInput) : (s.setPending rest).Matched (t.setPending rest) :=
  { h with pending := rfl }

theorem answered (h : s.Matched t) {d d' : Word} (hd : d = d') : (s.answered d).Matched (t.answered d') :=
  { h with response := by rw [hd]; rfl }

theorem faulted (h : s.Matched t) (f : BlockFault) : (s.faulted f).Matched (t.faulted f) :=
  { h with err := congrArg (· ||| f.bit) h.err, response := rfl }

theorem setValidator (h : s.Matched t) {p p' : List Byte} (hp : p = p') :
    (s.setValidator p).Matched (t.setValidator p') := by
  subst hp
  unfold State.setValidator
  rw [h.mode]
  cases t.mode with
  | checksum => exact h.setSum rfl
  | crc => exact h.setCrc rfl

/-- After reset no byte is valid, so the new epoch of each is not seen (R25, R27). -/
theorem resetEvent (h : s.Matched t) : s.resetEvent.Matched t.resetEvent where
  sum := rfl
  crc := rfl
  mode := rfl
  plen := rfl
  flen := rfl
  rseq := rfl
  stat := rfl
  err := rfl
  pending := h.pending
  response := rfl
  bytes
    | .payload => .zero
    | .frame => .zero

/-! ### The operations on the buffers -/

theorem setPayload (h : s.Matched t) {m m' : Memory} {n n' : Byte} (hn : n = n')
    (hm : Memory.AgreeBelow (validCount .payload n) m m'
      (Config.unwritten s.epoch .payload) (Config.unwritten t.epoch .payload)) :
    (s.setPayload m n).Matched (t.setPayload m' n') :=
  { h with
    plen := hn
    bytes := fun
      | .payload => hm
      | .frame => h.bytes .frame }

theorem setFrame (h : s.Matched t) {m m' : Memory} {n n' : Byte} (hn : n = n')
    (hm : Memory.AgreeBelow (validCount .frame n) m m'
      (Config.unwritten s.epoch .frame) (Config.unwritten t.epoch .frame)) :
    (s.setFrame m n).Matched (t.setFrame m' n') :=
  { h with
    flen := hn
    bytes := fun
      | .payload => h.bytes .payload
      | .frame => hm }

theorem count (h : s.Matched t) (b : Buffer) : s.count b = t.count b := by
  cases b with
  | payload => exact h.plen
  | frame => exact h.flen

theorem byteAt (h : s.Matched t) {b : Buffer} {i : Nat} (hi : i < validCount b (s.count b)) :
    s.byteAt b i = t.byteAt b i := h.bytes b i hi

theorem bytesFrom (h : s.Matched t) {b : Buffer} {i n : Nat} (hn : i + n ≤ validCount b (s.count b)) :
    s.bytesFrom b i n = t.bytesFrom b i n :=
  State.bytesFrom_congr fun _ hk => h.byteAt (by omega)

/-- A payload of 128 offered bytes is valid as a whole (R27). -/
theorem payload (h : s.Matched t) (hlen : s.plen.toNat = 128) : s.payload = t.payload :=
  h.bytesFrom (by simp [validCount, hlen])

/-! ### The responses and the guards -/

theorem respond (h : s.Matched t) {d d' : Word} (hd : d = d') : MatchedAnswers (respond d s) (respond d' t) :=
  ⟨_, _, rfl, rfl, h.answered hd⟩

theorem raise (h : s.Matched t) (f : BlockFault) : MatchedAnswers (raise f s) (raise f t) :=
  ⟨_, _, rfl, rfl, h.faulted f⟩

theorem withPayload (h : s.Matched t) {k k' : List Byte → Result}
    (hk : MatchedAnswers (k s.payload) (k' s.payload)) : MatchedAnswers (withPayload s k) (withPayload t k') := by
  unfold Machine.withPayload
  rw [← h.plen]
  split
  next hlen => rw [← h.payload hlen]; exact hk
  next => exact h.raise _

theorem readIndexed (h : s.Matched t) (b : Buffer) (imm : Byte) :
    MatchedAnswers (readIndexed b imm s) (readIndexed b imm t) := by
  unfold Machine.readIndexed
  rw [← h.count b]
  split
  next => exact h.raise _
  next hvalid => exact h.respond (by rw [h.byteAt (Nat.lt_of_not_le hvalid)])

/-! ### The commands that have a guard or read or write a buffer -/

theorem execBsum (h : s.Matched t) : MatchedAnswers (execBsum s) (execBsum t) := by
  refine h.withPayload ?_
  exact (h.setSum rfl).respond rfl

theorem execBcrc (h : s.Matched t) : MatchedAnswers (execBcrc s) (execBcrc t) := by
  refine h.withPayload ?_
  exact (h.setCrc rfl).respond rfl

theorem execPtrim (h : s.Matched t) : MatchedAnswers (execPtrim s) (execPtrim t) := by
  refine h.withPayload ?_
  exact h.respond rfl

theorem execSetmode (h : s.Matched t) (imm : Byte) : MatchedAnswers (execSetmode imm s) (execSetmode imm t) := by
  unfold Machine.execSetmode
  split
  next => exact h.raise _
  next => exact (h.setMode _).respond rfl

theorem execPwr (h : s.Matched t) (imm : Byte) : MatchedAnswers (execPwr imm s) (execPwr imm t) := by
  unfold Machine.execPwr
  rw [← h.plen]
  exact (h.setPayload rfl ((h.bytes .payload).appendCell imm)).respond rfl

theorem execFwr (h : s.Matched t) (imm : Byte) : MatchedAnswers (execFwr imm s) (execFwr imm t) := by
  unfold Machine.execFwr
  rw [← h.flen]
  exact (h.setFrame rfl ((h.bytes .frame).appendCell imm)).respond rfl

/-- The filler makes every byte from `PLEN` on the same (R92). -/
theorem execPpad (h : s.Matched t) : MatchedAnswers (execPpad s) (execPpad t) := by
  unfold Machine.execPpad
  rw [← h.plen]
  split
  next hlt =>
    have hold : Memory.AgreeBelow s.plen.toNat s.pbuf t.pbuf _ _ :=
      (h.bytes .payload).mono (Nat.le_min.2 ⟨le_rfl, hlt.le⟩)
    have hpad := hold.writeAll (List.replicate (Config.payloadLen - s.plen.toNat) Config.filler)
    rw [List.length_replicate, Nat.add_sub_cancel' hlt.le] at hpad
    exact (h.setPayload rfl (hpad.mono (validCount_le .payload 128))).respond rfl
  next => exact h.respond rfl

/-- `PACK` stores a frame of the whole length it gives `FLEN`, so nothing older is valid afterwards (R103). -/
theorem execPack (h : s.Matched t) (imm : Byte) : MatchedAnswers (execPack imm s) (execPack imm t) := by
  refine h.withPayload ?_
  rw [← h.mode]
  have hvalid : validCount .frame (BitVec.ofNat 8 (frameLen s.mode)) = (frame s.mode imm s.payload).length :=
    (validCount_frame_of_toNat_eq_frameLen (toNat_frameLen _)).trans (length_frame _ _ _ s.length_payload).symm
  exact ((h.setValidator rfl).setFrame rfl (.writeAll_zero hvalid.le)).respond rfl

theorem byteAt_frame (h : s.Matched t) (hlen : s.flen.toNat = frameLen s.mode) {i : Nat} (hi : i < frameLen s.mode) :
    s.byteAt .frame i = t.byteAt .frame i :=
  h.byteAt (hi.trans_eq (validCount_frame_of_toNat_eq_frameLen hlen).symm)

theorem framePayload (h : s.Matched t) (hlen : s.flen.toNat = frameLen s.mode) : s.framePayload = t.framePayload := by
  refine h.bytesFrom ?_
  rw [State.count_frame, validCount_frame_of_toNat_eq_frameLen hlen]
  exact (by decide : 3 + Config.payloadLen ≤ 132).trans (le_frameLen _)

/-- The validator ends with the frame, at index 131 or 132 (R46, R47). -/
theorem checkOk (h : s.Matched t) (hlen : s.flen.toNat = frameLen s.mode) : s.checkOk = t.checkOk := by
  have hlast : s.byteAt .frame 131 = t.byteAt .frame 131 := h.byteAt_frame hlen (le_frameLen _)
  unfold State.checkOk
  rw [← h.mode, ← h.framePayload hlen]
  cases hm : s.mode with
  | checksum => simp only [hlast]
  | crc => simp only [hlast, h.byteAt_frame hlen (show 132 < frameLen s.mode by rw [hm]; decide)]

theorem unpackStat (h : s.Matched t) (hlen : s.flen.toNat = frameLen s.mode) : s.unpackStat = t.unpackStat := by
  have hheader : ∀ i < 132, s.byteAt .frame i = t.byteAt .frame i :=
    fun i hi => h.byteAt_frame hlen (hi.trans_le (le_frameLen _))
  unfold State.unpackStat
  rw [h.checkOk hlen, hheader 0 (by decide), hheader 1 (by decide), hheader 2 (by decide)]

/-- All that `UNPACK` reads is valid in a frame of the mode's length, and it stores a whole payload, so nothing older is
valid in `PBUF` afterwards (R108). -/
theorem execUnpack (h : s.Matched t) : MatchedAnswers (execUnpack s) (execUnpack t) := by
  unfold Machine.execUnpack
  rw [← h.flen, ← h.mode]
  split
  next hlen =>
    have hseq : s.byteAt .frame 1 = t.byteAt .frame 1 :=
      h.byteAt_frame hlen ((by decide : 1 < 132).trans_le (le_frameLen _))
    rw [← h.framePayload hlen, ← h.unpackStat hlen, ← hseq]
    have hvalid : validCount .payload 128 ≤ s.framePayload.length :=
      (validCount_le .payload 128).trans_eq s.length_framePayload.symm
    exact (((h.setValidator rfl).setPayload rfl (.writeAll_zero hvalid)).setUnpacked rfl rfl).respond rfl
  next => exact h.raise _

/-! ### Every command, every step, every run -/

/-- No command sees more of the state than what matched states share. -/
theorem exec (h : s.Matched t) (i : Instr) : MatchedAnswers (exec i s) (exec i t) := by
  cases i with
  | sumclr => exact (h.setSum rfl).respond rfl
  | sumadd b => exact (h.setSum (congrArg (sumStep · b) h.sum)).respond rfl
  | sumrd => exact h.respond (congrArg zext16 h.sum)
  | bsum => exact h.execBsum
  | crcclr => exact (h.setCrc rfl).respond rfl
  | crcupd b => exact (h.setCrc (congrArg (crcStep · b) h.crc)).respond rfl
  | crcrd => exact h.respond h.crc
  | bcrc => exact h.execBcrc
  | pclr => exact (h.setPayload (n := 0) rfl .zero).respond rfl
  | pwr b => exact h.execPwr b
  | ppad => exact h.execPpad
  | prd n => exact h.readIndexed .payload n
  | plenrd => exact h.respond (congrArg zext16 h.plen)
  | ptrim => exact h.execPtrim
  | setmode m => exact h.execSetmode m
  | pack q => exact h.execPack q
  | unpack => exact h.execUnpack
  | fclr => exact (h.setFrame (n := 0) rfl .zero).respond rfl
  | fwr b => exact h.execFwr b
  | frd n => exact h.readIndexed .frame n
  | flenrd => exact h.respond (congrArg zext16 h.flen)
  | seqrd => exact h.respond (congrArg zext16 h.rseq)
  | statrd => exact h.respond (congrArg (·.zeroExtend 16) h.stat)
  | moderd => exact h.respond (congrArg Mode.data h.mode)
  | errrd => exact h.respond (congrArg (·.zeroExtend 16) h.err)

theorem runWord (h : s.Matched t) (w : Word) : MatchedAnswers (runWord w s) (runWord w t) := by
  cases hd : decode w with
  | command i => rw [runWord_of_decode_command hd, runWord_of_decode_command hd]; exact h.exec i
  | reject why => rw [runWord_of_decode_reject hd, runWord_of_decode_reject hd]; exact h.raise _

theorem step (h : s.Matched t) : MatchedAnswers (step s) (step t) := by
  cases hs : s.pending with
  | nil => exact ⟨s, t, step_of_pending_nil hs, step_of_pending_nil (h.pending ▸ hs), h⟩
  | cons x rest =>
    have ht : t.pending = x :: rest := h.pending ▸ hs
    cases x with
    | command w =>
      rw [step_of_pending_command hs, step_of_pending_command ht]
      exact (h.setPending rest).runWord w
    | reset =>
      rw [step_of_pending_reset hs, step_of_pending_reset ht]
      exact ⟨_, _, rfl, rfl, (h.setPending rest).resetEvent⟩

/-- Matched states run matched, for any number of steps. -/
theorem runSteps (h : s.Matched t) (n : Nat) :
    ∃ s' t', runSteps n s = some s' ∧ runSteps n t = some t' ∧ s'.Matched t' := by
  induction n generalizing s t with
  | zero => exact ⟨s, t, rfl, rfl, h⟩
  | succ n ih =>
    obtain ⟨u, v, hu, hv, huv⟩ := h.step
    obtain ⟨s', t', hs', ht', h'⟩ := ih huv
    exact ⟨s', t', (runSteps_succ_of_step hu n).trans hs', (runSteps_succ_of_step hv n).trans ht', h'⟩

end State.Matched

/-- Settles O39: alike states with the same inputs and response are matched, and every step keeps that. -/
theorem alikeStatesRespondAlike : Obligations.AlikeStatesRespondAlike := by
  intro n s t halike hpending hresponse
  obtain ⟨s', t', hs, ht, h⟩ := (State.matched_iff.2 ⟨halike, hpending, hresponse⟩).runSteps n
  exact ⟨s', t', hs, ht, State.matched_iff.1 h⟩

end Sys2Proof.Machine

/-! ## The state a command leaves when it does not fault, and the access table (R10 to R19) -/

namespace Sys2Proof.Machine

/-- The state a command leaves when it does not fault, less the response; `exec_next_cases` ties it to `exec`. -/
def okState : Instr → State → State
  | .sumclr, s => s.setSum 0x00
  | .sumadd b, s => s.setSum (sumStep s.sum b)
  | .bsum, s => s.setSum (checksum s.payload)
  | .crcclr, s => s.setCrc Config.crcInit
  | .crcupd b, s => s.setCrc (crcStep s.crc b)
  | .bcrc, s => s.setCrc (crc16 s.payload)
  | .pclr, s => s.setPayload s.pbuf 0
  | .pwr b, s => s.setPayload (appendCell .payload s.pbuf s.plen b) (bumpCount s.plen)
  | .ppad, s => if s.plen.toNat < 128 then s.setPayload (padCells s.pbuf s.plen) 128 else s
  | .setmode m, s => s.setMode (Mode.ofOperand m)
  | .pack q, s => packed q s
  | .unpack, s => unpacked s
  | .fclr, s => s.setFrame s.fbuf 0
  | .fwr b, s => s.setFrame (appendCell .frame s.fbuf s.flen b) (bumpCount s.flen)
  | .sumrd, s | .crcrd, s | .prd _, s | .plenrd, s | .ptrim, s => s
  | .frd _, s | .flenrd, s | .seqrd, s | .statrd, s | .moderd, s | .errrd, s => s

/-- What a guarded command can do, without the guard. -/
theorem answers_or_faults_of_guard {P Q : Prop} {r : Result} {s u : State} {d : Word} {f : BlockFault}
    (h : (P ∧ r = .next (u.answered d)) ∨ (Q ∧ r = .next (s.faulted f))) :
    (∃ d, r = .next (u.answered d)) ∨ ∃ f, r = .next (s.faulted f) :=
  h.imp (fun hok => ⟨d, hok.2⟩) (fun hfault => ⟨f, hfault.2⟩)

theorem exec_eq_okState_or_faulted (i : Instr) (s : State) :
    (∃ d, exec i s = .next ((okState i s).answered d)) ∨ ∃ f, exec i s = .next (s.faulted f) := by
  cases i with
  | bsum => exact answers_or_faults_of_guard (execBsum_cases s)
  | bcrc => exact answers_or_faults_of_guard (execBcrc_cases s)
  | ptrim => exact answers_or_faults_of_guard (execPtrim_cases s)
  | prd n => exact answers_or_faults_of_guard (readIndexed_cases .payload n s)
  | frd n => exact answers_or_faults_of_guard (readIndexed_cases .frame n s)
  | setmode m => exact answers_or_faults_of_guard (execSetmode_cases m s)
  | pack q => exact answers_or_faults_of_guard (execPack_cases q s)
  | unpack => exact answers_or_faults_of_guard (execUnpack_cases s)
  | ppad =>
    refine .inl ⟨0, ?_⟩
    rcases execPpad_cases s with ⟨hlt, h⟩ | ⟨hge, h⟩
    · rwa [okState, if_pos hlt]
    · rwa [okState, if_neg hge.not_gt]
  | _ => exact .inl ⟨_, rfl⟩

/-- The inversion of a command: it answers over its `okState`, or it takes a fault (R172). -/
theorem exec_next_cases {i : Instr} {s t : State} (h : exec i s = .next t) :
    (∃ d, t = (okState i s).answered d) ∨ ∃ f, t = s.faulted f := by
  rcases exec_eq_okState_or_faulted i s with ⟨d, he⟩ | ⟨f, he⟩
  · exact .inl ⟨d, by simpa using h.symm.trans he⟩
  · exact .inr ⟨f, by simpa using h.symm.trans he⟩

/-- Settles O36: a fault writes none of the fields but `ERR`, and what a command writes otherwise stands in `okState`. -/
theorem onlyTheListedCommandsWrite : Obligations.OnlyTheListedCommandsWrite := by
  intro i s t h
  rcases exec_next_cases h with ⟨d, rfl⟩ | ⟨f, rfl⟩
  · cases i with
    | ppad => simp only [okState]; split <;> simp
    | pack q => simp +contextual [okState, packed]
    | unpack => simp +contextual [okState, unpacked]
    | _ => simp [okState]
  · simp

/-! ## The fill counts (R14, R16) -/

theorem plen_eq_of_not_writer {i : Instr} {s t : State} (h : exec i s = .next t) (hpclr : i ≠ .pclr)
    (hpwr : ¬ ∃ b, i = .pwr b) (hppad : i ≠ .ppad) (hunpack : i ≠ .unpack) : t.plen = s.plen := by
  obtain ⟨-, -, -, -, hplen, -⟩ := onlyTheListedCommandsWrite i s t h
  by_contra hne
  rcases hplen hne with hi | hi | hi | hi
  exacts [hpclr hi, hpwr hi, hppad hi, hunpack hi]

theorem flen_eq_of_not_writer {i : Instr} {s t : State} (h : exec i s = .next t) (hfclr : i ≠ .fclr)
    (hfwr : ¬ ∃ b, i = .fwr b) (hpack : ¬ ∃ q, i = .pack q) : t.flen = s.flen := by
  obtain ⟨-, -, -, -, -, -, hflen, -⟩ := onlyTheListedCommandsWrite i s t h
  by_contra hne
  rcases hflen hne with hi | hi | hi
  exacts [hfclr hi, hfwr hi, hpack hi]

theorem execPpad_plen {s t : State} (h : execPpad s = .next t) : t.plen.toNat = max s.plen.toNat 128 := by
  rcases execPpad_cases s with ⟨hlt, he⟩ | ⟨hge, he⟩ <;> cases h.symm.trans he
  · exact (max_eq_right hlt.le).symm
  · exact (max_eq_left hge).symm

theorem execUnpack_plen {s t : State} (h : execUnpack s = .next t) :
    t.plen.toNat = if s.flen.toNat = frameLen s.mode then 128 else s.plen.toNat := by
  rcases execUnpack_cases s with ⟨hlen, he⟩ | ⟨hlen, he⟩ <;> cases h.symm.trans he
  · rw [if_pos hlen]; rfl
  · rw [if_neg hlen]; rfl

theorem execPack_flen {q : Byte} {s t : State} (h : execPack q s = .next t) :
    t.flen.toNat = if s.plen = 128 then frameLen s.mode else s.flen.toNat := by
  have hiff : s.plen = 128 ↔ s.plen.toNat = 128 := BitVec.toNat_inj.symm
  rcases execPack_cases q s with ⟨hlen, he⟩ | ⟨hlen, he⟩ <;> cases h.symm.trans he
  · rw [if_pos (hiff.2 hlen)]; exact toNat_frameLen s.mode
  · rw [if_neg (mt hiff.1 hlen)]; rfl

/-- Settles O26: each writer's count by its own lemma, and any other command keeps the count by the access table. -/
theorem fillCountsFollowTheirWriters : Obligations.FillCountsFollowTheirWriters := by
  intro i s t h
  constructor
  · split_ifs with hpclr hpwr hppad hunpack
    · subst hpclr; cases h; rfl
    · obtain ⟨b, rfl⟩ := hpwr; cases h; exact toNat_bumpCount s.plen
    · subst hppad; exact execPpad_plen h
    · obtain ⟨rfl, hlen⟩ := hunpack; exact (execUnpack_plen h).trans (if_pos hlen)
    · by_cases hi : i = .unpack
      · subst hi; exact (execUnpack_plen h).trans (if_neg fun hlen => hunpack ⟨rfl, hlen⟩)
      · rw [plen_eq_of_not_writer h hpclr hpwr hppad hi]
  · split_ifs with hfclr hfwr hpack
    · subst hfclr; cases h; rfl
    · obtain ⟨b, rfl⟩ := hfwr; cases h; exact toNat_bumpCount s.flen
    · obtain ⟨⟨q, rfl⟩, hlen⟩ := hpack; exact (execPack_flen h).trans (if_pos hlen)
    · by_cases hi : ∃ q, i = .pack q
      · obtain ⟨q, rfl⟩ := hi; exact (execPack_flen h).trans (if_neg fun hlen => hpack ⟨⟨q, rfl⟩, hlen⟩)
      · rw [flen_eq_of_not_writer h hfclr hfwr hi]

end Sys2Proof.Machine

/-! ## Reset (R25, R195) -/

namespace Sys2Proof.Machine

/-- Settles O1: reset and the reset event leave the same state up to the epoch and the host's inputs. -/
theorem resetLeavesTheStatedValues : Obligations.ResetLeavesTheStatedValues := by
  refine ⟨fun s hs => ?_, fun r rest hp => ⟨_, step_of_pending_reset hp, rfl⟩⟩
  obtain ⟨e, p, rfl⟩ : ∃ e p, s = { State.reset with epoch := e, pending := p } := by
    rcases hs with rfl | ⟨r, rest, hp, hstep⟩
    · exact ⟨_, _, rfl⟩
    · cases hstep.symm.trans (step_of_pending_reset hp)
      exact ⟨_, _, rfl⟩
  exact ⟨rfl, rfl, rfl, rfl, rfl, rfl, rfl, rfl, rfl, rfl, rfl, fun _ => ⟨rfl, rfl⟩⟩

end Sys2Proof.Machine

/-! ## The fault record (R19) -/

namespace Sys2Proof.Machine

/-- A fault's bit of `ERR` is at the place of its own code and at no other's (R19). -/
theorem BlockFault.getLsbD_bit (f g : BlockFault) : f.bit.getLsbD (g.code - 1) = decide (f = g) := by
  cases f <;> cases g <;> rfl

/-- A command word answers `ok` and leaves `ERR` alone, or it takes a fault. -/
theorem runWord_next_cases {w : Word} {s t : State} (h : runWord w s = .next t) :
    (t.err = s.err ∧ ∃ d, t.response = some (.ok d)) ∨ ∃ f, t = s.faulted f := by
  cases hd : decode w with
  | reject why =>
    rw [runWord_of_decode_reject hd] at h
    exact .inr ⟨_, raise_next h⟩
  | command i =>
    rw [runWord_of_decode_command hd] at h
    rcases exec_cases i s with ⟨u, d, ⟨herr, -, -⟩, he⟩ | ⟨f, he⟩ <;> cases h.symm.trans he
    · exact .inl ⟨herr, d, rfl⟩
    · exact .inr ⟨f, rfl⟩

/-- A command word sets in `ERR` the bit of the fault it responds, and keeps every other bit (R19, R172). -/
theorem getLsbD_err_of_runWord {w : Word} {s t : State} (h : runWord w s = .next t) (f : BlockFault) :
    t.err.getLsbD (f.code - 1) = true ↔ s.err.getLsbD (f.code - 1) = true ∨ t.response = some (.fault f) := by
  rcases runWord_next_cases h with ⟨herr, d, hd⟩ | ⟨g, rfl⟩
  · simp [herr, hd]
  · simp [BlockFault.getLsbD_bit]

/-- Settles O35: an idle step keeps `ERR`, and a step with a command does to it what the command word does. -/
theorem errIsSticky : Obligations.ErrIsSticky := by
  refine ⟨rfl, rfl, rfl, rfl, fun s t h hreset f => ?_, fun s rest hp => ⟨_, step_of_pending_reset hp, rfl⟩, fun s => ?_⟩
  · cases hp : s.pending with
    | nil =>
      cases h.symm.trans (step_of_pending_nil hp)
      simp
    | cons x rest =>
      cases x with
      | reset => exact absurd hp (hreset rest)
      | command w =>
        have hbits := getLsbD_err_of_runWord ((step_of_pending_command hp).symm.trans h) f
        simpa using hbits
  · rw [BitVec.ofNat_toNat]; rfl

end Sys2Proof.Machine

/-! ## The observability invariant (R27, R30, R31) -/

namespace Sys2Proof.Machine

/-- A buffer of `size` cells in canonical form, of which every index below `k` has been written: what `State.Inv` says of
each buffer (`State.inv_iff`). -/
structure Memory.Filled (size k : Nat) (m : Memory) : Prop where
  wf : m.wf size = true
  written : ∀ i < k, (m.read? i).isSome = true

theorem State.inv_iff {s : State} : s.Inv ↔
    Memory.Filled (bufferSize .payload) (validCount .payload s.plen) s.pbuf ∧
      Memory.Filled (bufferSize .frame) (validCount .frame s.flen) s.fbuf :=
  ⟨fun ⟨⟨hp, hf⟩, vp, vf⟩ => ⟨⟨hp, vp⟩, ⟨hf, vf⟩⟩, fun ⟨⟨hp, vp⟩, ⟨hf, vf⟩⟩ => ⟨⟨hp, hf⟩, vp, vf⟩⟩

namespace Memory.Filled

variable {size k : Nat} {m : Memory}

theorem mono (h : Filled size k m) {j : Nat} (hj : j ≤ k) : Filled size j m :=
  ⟨h.wf, fun i hi => h.written i (hi.trans_le hj)⟩

/-- Bytes stored from `k` on are written too. -/
theorem writeAll (h : Filled size k m) (vs : List Byte) (hsize : k + vs.length ≤ size) :
    Filled size (k + vs.length) (m.writeAll k vs) := by
  refine ⟨Memory.wf_writeAll vs h.wf hsize, fun i hi => ?_⟩
  rw [Memory.read?_writeAll]
  by_cases hki : k ≤ i
  · simp [hki, hi, show i - k < vs.length by omega]
  · simpa [hki] using h.written i (by omega)

/-- A buffer overwritten from index 0 on is filled as far as the new bytes go, whatever stood there. -/
theorem writeAll_zero (h : Filled size k m) (vs : List Byte) (hsize : vs.length ≤ size) :
    Filled size vs.length (m.writeAll 0 vs) := by
  simpa using (h.mono (Nat.zero_le k)).writeAll vs (by omega)

/-- The store of `PWR` and `FWR` writes the byte that the count makes valid; past the buffer's size no index becomes valid
(R91, R105). -/
theorem appendCell {b : Buffer} {n : Byte} (h : Filled (bufferSize b) (validCount b n) m) (v : Byte) :
    Filled (bufferSize b) (validCount b (bumpCount n)) (appendCell b m n v) := by
  by_cases hroom : n.toNat < bufferSize b
  · rw [validCount, Nat.min_eq_left hroom.le] at h
    simp only [Machine.appendCell, if_pos hroom]
    refine (h.writeAll [v] hroom).mono ?_
    rw [validCount, toNat_bumpCount, List.length_singleton]
    omega
  · simp only [Machine.appendCell, if_neg hroom]
    refine h.mono ?_
    simp only [validCount]
    omega

/-- Padding writes every index from the count on, so the whole payload (R92). -/
theorem padCells {n : Byte} (h : Filled (bufferSize .payload) (validCount .payload n) m) (hlt : n.toNat < 128) :
    Filled (bufferSize .payload) 128 (padCells m n) := by
  have hvalid : validCount .payload n = n.toNat := Nat.min_eq_left hlt.le
  rw [hvalid] at h
  have hlen : n.toNat + (List.replicate (Config.payloadLen - n.toNat) Config.filler).length = 128 := by
    rw [List.length_replicate, Nat.add_sub_cancel' hlt.le]
  exact hlen ▸ h.writeAll _ hlen.le

end Memory.Filled

namespace State.Inv

variable {s : State}

theorem payload (h : s.Inv) : Memory.Filled (bufferSize .payload) (validCount .payload s.plen) s.pbuf := (inv_iff.1 h).1

theorem frame (h : s.Inv) : Memory.Filled (bufferSize .frame) (validCount .frame s.flen) s.fbuf := (inv_iff.1 h).2

theorem setPayload (h : s.Inv) {m : Memory} {n : Byte}
    (hm : Memory.Filled (bufferSize .payload) (validCount .payload n) m) : (s.setPayload m n).Inv :=
  inv_iff.2 ⟨hm, h.frame⟩

theorem setFrame (h : s.Inv) {m : Memory} {n : Byte}
    (hm : Memory.Filled (bufferSize .frame) (validCount .frame n) m) : (s.setFrame m n).Inv :=
  inv_iff.2 ⟨h.payload, hm⟩

theorem setUnpacked (h : s.Inv) (q : Byte) (x : BitVec 3) : (s.setUnpacked q x).Inv := h

theorem setValidator (h : s.Inv) (p : List Byte) : (s.setValidator p).Inv := by
  unfold State.setValidator
  split
  · exact h
  · exact h

/-- `PACK` stores a frame of the whole length it gives `FLEN` (R103). -/
theorem packed (h : s.Inv) (q : Byte) : (packed q s).Inv := by
  refine (h.setValidator _).setFrame ?_
  have hlen : (Machine.frame s.mode q s.payload).length = frameLen s.mode := length_frame _ _ _ s.length_payload
  have hvalid := validCount_frame_of_toNat_eq_frameLen (toNat_frameLen s.mode)
  rw [hvalid, ← hlen]
  exact h.frame.writeAll_zero _ (by rw [hlen, ← hvalid]; exact validCount_le ..)

/-- `UNPACK` stores a whole payload (R108). -/
theorem unpacked (h : s.Inv) : (unpacked s).Inv := by
  have hlen : s.framePayload.length = bufferSize .payload := s.length_framePayload
  have hvalid : validCount .payload 128 ≤ s.framePayload.length := hlen ▸ validCount_le ..
  have hpayload := (h.payload.writeAll_zero s.framePayload hlen.le).mono hvalid
  exact ((h.setValidator s.framePayload).setPayload hpayload).setUnpacked _ _

theorem okState (h : s.Inv) (i : Instr) : (okState i s).Inv := by
  cases i with
  | pclr => exact h.setPayload (h.payload.mono (Nat.zero_le _))
  | pwr b => exact h.setPayload (h.payload.appendCell b)
  | ppad =>
    simp only [Machine.okState]
    split
    next hlt => exact h.setPayload (h.payload.padCells hlt)
    next => exact h
  | pack q => exact h.packed q
  | unpack => exact h.unpacked
  | fclr => exact h.setFrame (h.frame.mono (Nat.zero_le _))
  | fwr b => exact h.setFrame (h.frame.appendCell b)
  | _ => exact h

theorem exec (h : s.Inv) {i : Instr} {t : State} (he : exec i s = .next t) : t.Inv := by
  rcases exec_next_cases he with ⟨d, rfl⟩ | ⟨f, rfl⟩
  · exact h.okState i
  · exact h

theorem runWord (h : s.Inv) {w : Word} {t : State} (hr : runWord w s = .next t) : t.Inv := by
  cases hd : decode w with
  | command i =>
    rw [runWord_of_decode_command hd] at hr
    exact h.exec hr
  | reject why =>
    rw [runWord_of_decode_reject hd] at hr
    cases raise_next hr
    exact h

end State.Inv

/-- Settles O2: no cell is listed, and no index is valid. -/
theorem invariantHoldsAtReset : Obligations.InvariantHoldsAtReset :=
  State.inv_iff.2 ⟨⟨Memory.wf_nil _, fun _ hi => absurd hi (Nat.not_lt_zero _)⟩,
    ⟨Memory.wf_nil _, fun _ hi => absurd hi (Nat.not_lt_zero _)⟩⟩

/-- Settles O38: by the host's next input; the buffers after the reset event are those of reset, and every command writes
the bytes that it makes valid. -/
theorem invariantKeptByEveryStep : Obligations.InvariantKeptByEveryStep := by
  intro s t h hs
  cases hp : s.pending with
  | nil =>
    cases hs.symm.trans (step_of_pending_nil hp)
    exact h
  | cons x rest =>
    cases x with
    | command w =>
      have hrest : (s.setPending rest).Inv := h
      exact hrest.runWord ((step_of_pending_command hp).symm.trans hs)
    | reset =>
      cases hs.symm.trans (step_of_pending_reset hp)
      exact invariantHoldsAtReset

end Sys2Proof.Machine

/-! ## Commands issued twice (R37) -/

namespace Sys2Proof.Machine

/-! ### A write of what is there already changes nothing -/

theorem State.setPayload_eq_self {s : State} {m : Memory} {n : Byte} (hm : m = s.pbuf) (hn : n = s.plen) :
    s.setPayload m n = s := by
  subst hm hn; rfl

theorem State.setFrame_eq_self {s : State} {m : Memory} {n : Byte} (hm : m = s.fbuf) (hn : n = s.flen) :
    s.setFrame m n = s := by
  subst hm hn; rfl

theorem State.setUnpacked_eq_self {s : State} {q : Byte} {x : BitVec 3} (hq : q = s.rseq) (hx : x = s.stat) :
    s.setUnpacked q x = s := by
  subst hq hx; rfl

theorem State.setValidator_eq_self {s : State} {p : List Byte} (hsum : s.mode = .checksum → s.sum = checksum p)
    (hcrc : s.mode = .crc → s.crc = crc16 p) : s.setValidator p = s := by
  unfold State.setValidator
  split
  next hm => rw [← hsum hm]; rfl
  next hm => rw [← hcrc hm]; rfl

/-- A fault's bit of `ERR` is set once (R19). -/
theorem State.faulted_faulted (s : State) (f : BlockFault) : (s.faulted f).faulted f = s.faulted f := by
  simp [State.faulted, BitVec.or_assoc]

theorem Memory.write_cons_of_lt {i a : Nat} (h : i < a) (v x : Byte) (m : Memory) :
    Memory.write ((a, x) :: m) i v = (i, v) :: (a, x) :: m := if_pos h

theorem Memory.write_cons_same (i : Nat) (v x : Byte) (m : Memory) :
    Memory.write ((i, x) :: m) i v = (i, v) :: m := (if_neg (lt_irrefl i)).trans (if_pos rfl)

theorem Memory.write_cons_of_gt {i a : Nat} (h : a < i) (v x : Byte) (m : Memory) :
    Memory.write ((a, x) :: m) i v = (a, x) :: m.write i v := (if_neg h.not_gt).trans (if_neg h.ne')

theorem Memory.write_write_same (m : Memory) (i : Nat) (v : Byte) : (m.write i v).write i v = m.write i v := by
  induction m with
  | nil => exact Memory.write_cons_same ..
  | cons c m ih =>
    obtain ⟨a, x⟩ := c
    rcases lt_trichotomy i a with hlt | rfl | hgt
    · rw [Memory.write_cons_of_lt hlt, Memory.write_cons_same]
    · rw [Memory.write_cons_same, Memory.write_cons_same]
    · rw [Memory.write_cons_of_gt hgt, Memory.write_cons_of_gt hgt, ih]

/-- A cell that holds the byte already keeps its place when a later index is written, so that writing it again still changes
nothing. The buffer need not be in canonical form. -/
theorem Memory.write_write_eq_self {m : Memory} {i j : Nat} {v w : Byte} (h : m.write i v = m) (hij : i < j) :
    (m.write j w).write i v = m.write j w := by
  induction m with
  | nil => cases h
  | cons c m ih =>
    obtain ⟨a, x⟩ := c
    rcases lt_trichotomy i a with hlt | rfl | hgt
    · rw [Memory.write_cons_of_lt hlt] at h
      exact absurd (List.cons.inj h).2 (List.cons_ne_self _ _)
    · rw [Memory.write_cons_same] at h
      rw [Memory.write_cons_of_gt hij, Memory.write_cons_same, (List.cons.inj h).1]
    · rw [Memory.write_cons_of_gt hgt] at h
      rw [Memory.write_cons_of_gt (hgt.trans hij), Memory.write_cons_of_gt hgt, ih (List.cons.inj h).2]

theorem Memory.write_writeAll_eq_self {m : Memory} {i j : Nat} {v : Byte} (h : m.write i v = m) (hij : i < j)
    (vs : List Byte) : (m.writeAll j vs).write i v = m.writeAll j vs := by
  induction vs generalizing m j with
  | nil => exact h
  | cons w vs ih => exact ih (Memory.write_write_eq_self h hij) (by omega)

/-- The same bytes stored twice at the same place. -/
theorem Memory.writeAll_writeAll_same (m : Memory) (i : Nat) (vs : List Byte) :
    (m.writeAll i vs).writeAll i vs = m.writeAll i vs := by
  induction vs generalizing m i with
  | nil => rfl
  | cons v vs ih =>
    simp only [Memory.writeAll]
    rw [Memory.write_writeAll_eq_self (Memory.write_write_same m i v) (Nat.lt_succ_self i), ih]

/-! ### What the guarded computations read of the state -/

theorem State.payload_congr {s t : State} (hbuf : s.pbuf = t.pbuf) (hepoch : s.epoch = t.epoch) :
    s.payload = t.payload :=
  State.bytesFrom_congr fun _ _ => State.byteAt_congr (b := .payload) _ hbuf hepoch

theorem State.framePayload_congr {s t : State} (hbuf : s.fbuf = t.fbuf) (hepoch : s.epoch = t.epoch) :
    s.framePayload = t.framePayload :=
  State.bytesFrom_congr fun _ _ => State.byteAt_congr (b := .frame) _ hbuf hepoch

theorem State.unpackStat_congr {s t : State} (hmode : s.mode = t.mode) (hbuf : s.fbuf = t.fbuf)
    (hepoch : s.epoch = t.epoch) : s.unpackStat = t.unpackStat := by
  have hbyte : ∀ i, s.byteAt .frame i = t.byteAt .frame i := fun i => State.byteAt_congr (b := .frame) i hbuf hepoch
  simp only [State.unpackStat, State.checkOk, hmode, hbyte, State.framePayload_congr hbuf hepoch]

/-- A state that holds the frame of its payload and the validator is left as it is by `PACK`, up to the response. -/
theorem packed_eq_self {q : Byte} {t : State} (hsum : t.mode = .checksum → t.sum = checksum t.payload)
    (hcrc : t.mode = .crc → t.crc = crc16 t.payload)
    (hfbuf : t.fbuf.writeAll 0 (frame t.mode q t.payload) = t.fbuf)
    (hflen : BitVec.ofNat 8 (frameLen t.mode) = t.flen) : packed q t = t := by
  rw [packed, State.setValidator_eq_self hsum hcrc, State.setFrame_eq_self hfbuf hflen]

theorem packed_answered_packed (q : Byte) (s : State) (d : Word) :
    packed q ((packed q s).answered d) = (packed q s).answered d := by
  have hpayload : ((packed q s).answered d).payload = s.payload :=
    State.payload_congr (by simp [packed]) (by simp [packed])
  apply packed_eq_self
  · rw [hpayload]; simp +contextual [packed]
  · rw [hpayload]; simp +contextual [packed]
  · rw [hpayload]; simp [packed, Memory.writeAll_writeAll_same]
  · simp [packed]

/-- A state that holds what `UNPACK` takes from its frame is left as it is by `UNPACK`, up to the response. -/
theorem unpacked_eq_self {t : State} (hsum : t.mode = .checksum → t.sum = checksum t.framePayload)
    (hcrc : t.mode = .crc → t.crc = crc16 t.framePayload) (hpbuf : t.pbuf.writeAll 0 t.framePayload = t.pbuf)
    (hplen : 128 = t.plen) (hrseq : t.byteAt .frame 1 = t.rseq) (hstat : t.unpackStat = t.stat) : unpacked t = t := by
  rw [unpacked, State.setValidator_eq_self hsum hcrc, State.setPayload_eq_self hpbuf hplen,
    State.setUnpacked_eq_self hrseq hstat]

theorem unpackStat_answered_unpacked (s : State) (d : Word) : ((unpacked s).answered d).unpackStat = s.unpackStat :=
  State.unpackStat_congr (by simp [unpacked]) (by simp [unpacked]) (by simp [unpacked])

theorem unpacked_answered_unpacked (s : State) (d : Word) :
    unpacked ((unpacked s).answered d) = (unpacked s).answered d := by
  have hbuf : ((unpacked s).answered d).fbuf = s.fbuf := by simp [unpacked]
  have hepoch : ((unpacked s).answered d).epoch = s.epoch := by simp [unpacked]
  have hpayload := State.framePayload_congr hbuf hepoch
  apply unpacked_eq_self
  · rw [hpayload]; simp +contextual [unpacked]
  · rw [hpayload]; simp +contextual [unpacked]
  · rw [hpayload]; simp [unpacked, Memory.writeAll_writeAll_same]
  · simp [unpacked]
  · rw [State.byteAt_congr (b := .frame) 1 hbuf hepoch]; simp [unpacked]
  · rw [unpackStat_answered_unpacked]; simp [unpacked]

/-! ### Every command but the four that append or fold -/

/-- A guarded command that, past its guard, finds the guard, its result and its response as it left them, repeats its
answer; behind a closed guard it repeats the fault. -/
theorem repeats_of_guard {P Q : State → Prop} {u : State → State} {d : State → Word} {f : BlockFault}
    {r : State → Result}
    (hr : ∀ s, (P s ∧ r s = .next ((u s).answered (d s))) ∨ (Q s ∧ r s = .next (s.faulted f)))
    (hguard : ∀ s, P s → ¬ Q s) (hfault : ∀ s, Q s → Q (s.faulted f))
    (hok : ∀ s e, P s → P ((u s).answered e) ∧ u ((u s).answered e) = (u s).answered e ∧ d ((u s).answered e) = d s)
    {s t : State} (h : r s = .next t) : r t = .next t := by
  rcases hr s with ⟨hP, hs⟩ | ⟨hQ, hs⟩ <;> cases h.symm.trans hs
  · obtain ⟨hP', hu, hd⟩ := hok s (d s) hP
    rcases hr ((u s).answered (d s)) with ⟨-, ht⟩ | ⟨hQ, -⟩
    · rw [ht, hu, hd]; rfl
    · exact absurd hQ (hguard _ hP')
  · rcases hr (s.faulted f) with ⟨hP, -⟩ | ⟨-, ht⟩
    · exact absurd (hfault s hQ) (hguard _ hP)
    · rw [ht, State.faulted_faulted]

theorem execBsum_repeats {s t : State} (h : execBsum s = .next t) : execBsum t = .next t := by
  refine repeats_of_guard execBsum_cases (fun _ hP hQ => hQ hP) (fun _ hQ => hQ) (fun s e hP => ?_) h
  have hpayload : ((s.setSum (checksum s.payload)).answered e).payload = s.payload := State.payload_congr rfl rfl
  exact ⟨hP, by rw [hpayload]; rfl, by rw [hpayload]⟩

theorem execBcrc_repeats {s t : State} (h : execBcrc s = .next t) : execBcrc t = .next t := by
  refine repeats_of_guard execBcrc_cases (fun _ hP hQ => hQ hP) (fun _ hQ => hQ) (fun s e hP => ?_) h
  have hpayload : ((s.setCrc (crc16 s.payload)).answered e).payload = s.payload := State.payload_congr rfl rfl
  exact ⟨hP, by rw [hpayload]; rfl, by rw [hpayload]⟩

theorem execPtrim_repeats {s t : State} (h : execPtrim s = .next t) : execPtrim t = .next t := by
  refine repeats_of_guard execPtrim_cases (fun _ hP hQ => hQ hP) (fun _ hQ => hQ) (fun s e hP => ?_) h
  have hpayload : (s.answered e).payload = s.payload := State.payload_congr rfl rfl
  exact ⟨hP, rfl, by rw [hpayload]⟩

theorem readIndexed_repeats {b : Buffer} {imm : Byte} {s t : State} (h : readIndexed b imm s = .next t) :
    readIndexed b imm t = .next t :=
  repeats_of_guard (readIndexed_cases b imm) (fun _ hP hQ => hQ.not_gt hP) (fun _ hQ => hQ)
    (fun _ _ hP => ⟨hP, rfl, rfl⟩) h

theorem execSetmode_repeats {m : Byte} {s t : State} (h : execSetmode m s = .next t) : execSetmode m t = .next t :=
  repeats_of_guard (execSetmode_cases m) (fun _ hP hQ => hQ.not_ge hP) (fun _ hQ => hQ) (fun _ _ hP => ⟨hP, rfl, rfl⟩) h

/-- `PACK` leaves `PBUF`, `PLEN` and `MODE`, from which it builds the frame (R103). -/
theorem execPack_repeats {q : Byte} {s t : State} (h : execPack q s = .next t) : execPack q t = .next t := by
  refine repeats_of_guard (execPack_cases q) (fun _ hP hQ => hQ hP) (fun _ hQ => hQ) (fun s e hP => ?_) h
  exact ⟨by simpa [packed] using hP, packed_answered_packed q s e, by simp [packed]⟩

/-- `UNPACK` leaves `FBUF`, `FLEN` and `MODE`, which are all that it reads (R108). -/
theorem execUnpack_repeats {s t : State} (h : execUnpack s = .next t) : execUnpack t = .next t := by
  refine repeats_of_guard execUnpack_cases (fun _ hP hQ => hQ hP) (fun _ hQ => hQ) (fun s e hP => ?_) h
  exact ⟨by simpa [unpacked] using hP, unpacked_answered_unpacked s e, by rw [unpackStat_answered_unpacked]⟩

/-- `PPAD` leaves a full payload, which it then passes over (R92). -/
theorem execPpad_repeats {s t : State} (h : execPpad s = .next t) : execPpad t = .next t := by
  have hfull : 128 ≤ t.plen.toNat := (execPpad_plen h).symm ▸ le_max_right ..
  have hresponse : t.answered 0 = t := by
    rcases execPpad_cases s with ⟨-, hs⟩ | ⟨-, hs⟩ <;> cases h.symm.trans hs <;> rfl
  rcases execPpad_cases t with ⟨hlt, -⟩ | ⟨-, ht⟩
  · omega
  · rw [ht, hresponse]

/-- The commands that fold their operand into an accumulator or append it to a buffer. -/
def appendsOrFolds : Instr → Bool
  | .sumadd _ | .crcupd _ | .pwr _ | .fwr _ => true
  | _ => false

/-- Every other command, issued again at once, answers the same and leaves the state as it is. -/
theorem exec_repeats {i : Instr} (hi : appendsOrFolds i = false) {s t : State} (h : exec i s = .next t) :
    exec i t = .next t := by
  cases i with
  | sumadd b => cases hi
  | crcupd b => cases hi
  | pwr b => cases hi
  | fwr b => cases hi
  | bsum => exact execBsum_repeats h
  | bcrc => exact execBcrc_repeats h
  | ptrim => exact execPtrim_repeats h
  | prd n => exact readIndexed_repeats h
  | frd n => exact readIndexed_repeats h
  | setmode m => exact execSetmode_repeats h
  | pack q => exact execPack_repeats h
  | unpack => exact execUnpack_repeats h
  | ppad => exact execPpad_repeats h
  | _ => cases h; rfl

/-- A command whose answer writes no item of the state and that appends nothing changes the response only and repeats it, or
takes a fault. -/
theorem exec_query_cases {i : Instr} {s t : State} (hi : appendsOrFolds i = false) (hstate : okState i s = s)
    (h : exec i s = .next t) : (∃ d, t = s.answered d ∧ exec i t = .next t) ∨ ∃ f, t = s.faulted f := by
  rcases exec_next_cases h with ⟨d, ht⟩ | hfault
  · rw [hstate] at ht
    exact .inl ⟨d, ht, exec_repeats hi h⟩
  · exact .inr hfault

/-- A fill count below its maximum is counted up by one. -/
theorem toNat_bumpCount_of_lt {n : Byte} (h : n.toNat < 255) : (bumpCount n).toNat = n.toNat + 1 :=
  (toNat_bumpCount n).trans (min_eq_left h)

/-- Settles O37: a read's `okState` is the state itself, and every command but the appending and folding ones repeats. -/
theorem readsAreFreeOfEffectAndWritesIdempotent : Obligations.ReadsAreFreeOfEffectAndWritesIdempotent := by
  refine ⟨fun i s t hi h => ?_, fun s t b => ⟨fun h hlt => ?_, fun h hlt => ?_, fun h => ?_, fun h => ?_⟩,
    fun i s t hi h => exec_repeats ?_ h⟩
  · obtain ⟨hkind, hstate⟩ : appendsOrFolds i = false ∧ okState i s = s := by
      rcases hi with hi | ⟨n, rfl⟩ | ⟨n, rfl⟩
      · fin_cases hi <;> exact ⟨rfl, rfl⟩
      · exact ⟨rfl, rfl⟩
      · exact ⟨rfl, rfl⟩
    exact exec_query_cases hkind hstate h
  · cases h; exact toNat_bumpCount_of_lt hlt
  · cases h; exact toNat_bumpCount_of_lt hlt
  · cases h; rfl
  · cases h; rfl
  · rcases hi with hi | ⟨m, rfl⟩ | ⟨q, rfl⟩
    · fin_cases hi <;> rfl
    · rfl
    · rfl

end Sys2Proof.Machine

/-! ## The decoder, the encoder and the opcode map (R50, R52, R54) -/

namespace Sys2Proof

/-- The opcode selects the command's own arm of the decoder, and only `SETMODE` has an operand to be checked. -/
theorem decode_encode {i : Instr} (hwf : i.wellFormed = true) : decode (encode i) = .command i := by
  simp only [decode, encode, opField_append, immField_append]
  cases i with
  | setmode imm => exact if_pos (of_decide_eq_true hwf)
  | _ => rfl

/-- A word whose two fields are those of a command is the command's word (R50). -/
theorem encode_eq_of_fields {i : Instr} {w : Word} (hop : i.opcode = opField w) (himm : i.operand = immField w) :
    encode i = w := by
  rw [encode, hop, himm, opField_append_immField]

/-- The fields of a word that decodes are the opcode and the operand of the command it decodes to: by the arms of the
decoder, which are those of `SETMODE`, of the commands that take any byte, and of the commands without operand. -/
theorem fields_of_decode_eq_command {w : Word} {i : Instr} (h : decode w = .command i) :
    i.opcode = opField w ∧ i.operand = immField w ∧ i.wellFormed = true := by
  simp only [decode] at h
  split at h
  case h_15 hop =>
    obtain ⟨rfl, himm⟩ := decodeSetmode_eq_command h
    exact ⟨(BitVec.eq_of_toNat_eq hop).symm, rfl, decide_eq_true himm⟩
  case h_2 hop | h_6 hop | h_10 hop | h_12 hop | h_16 hop | h_19 hop | h_20 hop =>
    cases h
    exact ⟨(BitVec.eq_of_toNat_eq hop).symm, rfl, rfl⟩
  case h_26 => cases h
  all_goals
    rename_i hop
    obtain ⟨rfl, himm⟩ := decodeNoOperand_eq_command h
    exact ⟨(BitVec.eq_of_toNat_eq hop).symm, himm.symm, rfl⟩

theorem byte_append_inj {a b c d : Byte} : a ++ b = c ++ d ↔ a = c ∧ b = d := by
  constructor
  · intro h
    exact ⟨by simpa using congrArg opField h, by simpa using congrArg immField h⟩
  · rintro ⟨rfl, rfl⟩
    rfl

/-! ### The rows (R52) -/

/-- The command of the same row that another operand field selects: a command without operand stays as it is. -/
def Instr.withOperand : Instr → Byte → Instr
  | .sumadd _, imm => .sumadd imm
  | .crcupd _, imm => .crcupd imm
  | .pwr _, imm => .pwr imm
  | .prd _, imm => .prd imm
  | .setmode _, imm => .setmode imm
  | .pack _, imm => .pack imm
  | .fwr _, imm => .fwr imm
  | .frd _, imm => .frd imm
  | i, _ => i

@[simp] theorem Instr.row_withOperand (i : Instr) (imm : Byte) : (i.withOperand imm).row = i.row := by
  cases i <;> rfl

@[simp] theorem Instr.opcode_withOperand (i : Instr) (imm : Byte) : (i.withOperand imm).opcode = i.opcode := by
  cases i <;> rfl

@[simp] theorem Instr.withOperand_operand (i : Instr) : i.withOperand i.operand = i := by
  cases i <;> rfl

theorem Instr.withOperand_zero_mem_samples (i : Instr) : i.withOperand 0 ∈ Instr.samples := by
  cases i <;> simp [Instr.withOperand, Instr.samples]

theorem Instr.row_mem_opcodeMap (i : Instr) : i.row ∈ opcodeMap :=
  i.row_withOperand 0 ▸ List.mem_map_of_mem i.withOperand_zero_mem_samples

/-- The bits of the operand field that the mask of a command's row tests for zero (`Instr.row_mask`). -/
def Instr.operandMask : Instr → Byte
  | .setmode _ => 0xFE
  | .sumadd _ | .crcupd _ | .pwr _ | .prd _ | .pack _ | .fwr _ | .frd _ => 0x00
  | .sumclr | .sumrd | .bsum | .crcclr | .crcrd | .bcrc | .pclr | .ppad | .plenrd
  | .ptrim | .unpack | .fclr | .flenrd | .seqrd | .statrd | .moderd | .errrd => 0xFF

theorem Instr.row_mask (i : Instr) : i.row.mask = 0xFF#8 ++ i.operandMask := by
  cases i <;> simp only [Instr.row, Instr.operandMask] <;> decide

theorem Instr.row_pattern (i : Instr) : i.row.pattern = i.opcode ++ 0#8 := by
  cases i <;> simp [Instr.row, Instr.opcode]

/-- The mask admits the operand fields that select a well-formed command of the row. -/
theorem Instr.and_operandMask_eq_zero_iff (i : Instr) (imm : Byte) :
    imm &&& i.operandMask = 0 ↔ (i.withOperand imm).operand = imm ∧ (i.withOperand imm).wellFormed = true := by
  cases i with
  | setmode _ =>
    change imm &&& 0xFE#8 = 0 ↔ imm = imm ∧ decide (imm.toNat ≤ 1) = true
    revert imm
    decide
  | sumadd _ | crcupd _ | pwr _ | prd _ | pack _ | fwr _ | frd _ => exact iff_of_true BitVec.and_zero ⟨rfl, rfl⟩
  | _ =>
    have hmask : imm &&& 0xFF#8 = imm := BitVec.and_allOnes
    exact ⟨fun h => ⟨(hmask.symm.trans h).symm, rfl⟩, fun h => hmask.trans h.1.symm⟩

/-- A row covers the words with its opcode whose operand field has no bit that the mask tests. -/
theorem Instr.row_covers_append_iff (i : Instr) (op imm : Byte) :
    i.row.covers (op ++ imm) = true ↔ op = i.opcode ∧ imm &&& i.operandMask = 0 := by
  have hmasked : (op ++ imm) &&& i.row.mask = op ++ (imm &&& i.operandMask) := by
    rw [i.row_mask, BitVec.and_append]
    exact congrArg (· ++ _) BitVec.and_allOnes
  rw [OpcodeRow.covers, decide_eq_true_eq, hmasked, i.row_pattern, byte_append_inj]
  rfl

theorem Instr.row_covers_encode {i : Instr} (hwf : i.wellFormed = true) : i.row.covers (encode i) = true := by
  refine (i.row_covers_append_iff _ _).2 ⟨rfl, (i.and_operandMask_eq_zero_iff _).2 ?_⟩
  rw [i.withOperand_operand]
  exact ⟨rfl, hwf⟩

/-- A command's row covers exactly the words that decode to a command of that row. -/
theorem Instr.row_covers_iff (j : Instr) (w : Word) :
    j.row.covers w = true ↔ ∃ i, decode w = .command i ∧ i.row = j.row := by
  constructor
  · intro h
    rw [← opField_append_immField w, row_covers_append_iff, and_operandMask_eq_zero_iff] at h
    obtain ⟨hop, himm, hwf⟩ := h
    have hword : encode (j.withOperand (immField w)) = w := encode_eq_of_fields (by rw [opcode_withOperand, hop]) himm
    exact ⟨_, (congrArg decode hword).symm.trans (decode_encode hwf), j.row_withOperand _⟩
  · rintro ⟨i, hd, hrow⟩
    obtain ⟨hop, himm, hwf⟩ := fields_of_decode_eq_command hd
    rw [← hrow, ← encode_eq_of_fields hop himm]
    exact row_covers_encode hwf

end Sys2Proof

/-! ## Encoding and legal words (R52, R53, R54) -/

namespace Sys2Proof.Machine

/-- Settles O6: every operand of a well-formed command passes the check of the command's arm. -/
theorem decodeOfEncode : Obligations.DecodeOfEncode := fun _ hwf => decode_encode hwf

/-- Settles O7: the fields make up the word. -/
theorem encodeOfDecode : Obligations.EncodeOfDecode := by
  intro w i h
  obtain ⟨hop, himm, hwf⟩ := fields_of_decode_eq_command h
  exact ⟨encode_eq_of_fields hop himm, hwf⟩

theorem takesAnyByte_of_opcode {i : Byte → Instr} {op : Byte} (hop : ∀ imm, (i imm).opcode = op)
    (himm : ∀ imm, (i imm).operand = imm) (hwf : ∀ imm, (i imm).wellFormed = true) : TakesAnyByte i op := by
  intro imm
  have hword : encode (i imm) = op ++ imm := by rw [encode, hop, himm]
  exact ⟨hword, hword ▸ decode_encode (hwf imm)⟩

/-- Settles O5: the decoder is evaluated on each word. -/
theorem writtenOutWordsDecode : Obligations.WrittenOutWordsDecode := by
  unfold Obligations.WrittenOutWordsDecode
  decide

/-- Each clause of `LegalWord` lists opcodes, and the decoder's arm for each admits the operands of the clause. -/
theorem exists_decode_of_legalWord {op imm : Byte} (h : LegalWord op imm) : ∃ i, decode (op ++ imm) = .command i := by
  simp only [decode, opField_append, immField_append]
  rcases h with hop | ⟨hop, rfl⟩ | ⟨hop, rfl⟩ | ⟨rfl, himm⟩
  · fin_cases hop <;> exact ⟨_, rfl⟩
  · fin_cases hop <;> exact ⟨_, rfl⟩
  · fin_cases hop <;> exact ⟨_, rfl⟩
  · exact ⟨_, if_pos himm⟩

theorem legalWord_of_wellFormed {i : Instr} (hwf : i.wellFormed = true) : LegalWord i.opcode i.operand := by
  cases i with
  | setmode imm => exact .inr (.inr (.inr ⟨rfl, of_decide_eq_true hwf⟩))
  | _ => simp [LegalWord, Instr.opcode, Instr.operand]

theorem legalWord_of_decode {op imm : Byte} {i : Instr} (h : decode (op ++ imm) = .command i) : LegalWord op imm := by
  obtain ⟨hop, himm, hwf⟩ := fields_of_decode_eq_command h
  rw [opField_append] at hop
  rw [immField_append] at himm
  exact hop ▸ himm ▸ legalWord_of_wellFormed hwf

/-- Settles O8: the words that decode are the legal ones, and a word that does not decode faults. -/
theorem legalWordsAreTheCommands : Obligations.LegalWordsAreTheCommands := by
  intro op imm s
  constructor
  · intro h
    obtain ⟨i, hi⟩ := exists_decode_of_legalWord h
    exact ⟨i, hi, runWord_of_decode_command hi s⟩
  · intro h
    cases hd : decode (op ++ imm) with
    | command i => exact absurd (legalWord_of_decode hd) h
    | reject why => rw [runWord_of_decode_reject hd]; rfl

/-- Settles O9: every row of the map is the row of a command, and two rows that cover one word are both the row of the
command that the word decodes to. -/
theorem opcodeMapAgreesWithDecode : Obligations.OpcodeMapAgreesWithDecode := by
  intro w
  have hcovers : ∀ r ∈ opcodeMap, (r.covers w = true ↔ ∃ i, decode w = .command i ∧ i.row = r) := by
    intro r hr
    obtain ⟨j, -, rfl⟩ := List.mem_map.1 hr
    exact j.row_covers_iff w
  refine ⟨hcovers, fun i _ => i.row_mem_opcodeMap, fun r hr q hq hrw hqw => ?_⟩
  obtain ⟨i, hi, rfl⟩ := (hcovers r hr).1 hrw
  obtain ⟨k, hk, rfl⟩ := (hcovers q hq).1 hqw
  cases hi.symm.trans hk
  rfl

end Sys2Proof.Machine

/-! ## The assembler (R57, R58) -/

namespace Sys2Proof.Machine

/-- The mnemonics of the map are distinct, so looking one up finds its row (R52). -/
theorem find?_mnemonic_opcodeMap :
    ∀ r ∈ opcodeMap, opcodeMap.find? (fun q => decide (q.mnemonic = r.mnemonic)) = some r := by
  decide

theorem row_mask_eq_iff (i : Instr) : i.row.mask = 0xFFFF ↔ i.operandMask = 0xFF := by
  rw [i.row_mask, show (0xFFFF : Word) = 0xFF#8 ++ 0xFF#8 from rfl, byte_append_inj]
  exact ⟨And.right, fun h => ⟨rfl, h⟩⟩

theorem operand_of_operandMask {i : Instr} (h : i.operandMask = 0xFF) : i.operand = 0 := by
  cases i with
  | setmode _ | sumadd _ | crcupd _ | pwr _ | prd _ | pack _ | fwr _ | frd _ => cases h
  | _ => rfl

theorem toNat_append_byte (op imm : Byte) : (op ++ imm).toNat = op.toNat * 256 + imm.toNat := by
  rw [BitVec.toNat_append, ← Nat.shiftLeft_add_eq_or_of_lt imm.isLt, Nat.shiftLeft_eq]

theorem append_eq_add_zext16 (op imm : Byte) : op ++ imm = (op ++ 0#8) + zext16 imm := by
  apply BitVec.eq_of_toNat_eq
  rw [BitVec.toNat_add, toNat_append_byte, toNat_append_byte, toNat_zext16, BitVec.toNat_zero, Nat.add_zero]
  omega

/-- The pattern of a command's row, with the operand where the row has one, is the command's word. -/
theorem assembleWord_row (i : Instr) :
    assembleWord i.row.mnemonic (if i.row.mask = 0xFFFF then none else some i.operand) = some (encode i) := by
  have hrow := find?_mnemonic_opcodeMap _ i.row_mem_opcodeMap
  by_cases hmask : i.row.mask = 0xFFFF
  · have hzero : i.operand = 0 := operand_of_operandMask ((row_mask_eq_iff i).1 hmask)
    simp only [assembleWord, hrow, hmask, if_true, i.row_pattern, encode, hzero]
    rfl
  · simp only [assembleWord, hrow, hmask, if_false, i.row_pattern, opField_append, encode]

/-- Settles O10: the words of the appended bytes are sums, because the opcode and the operand have no bit in common. -/
theorem assemblerEncodesCommands : Obligations.AssemblerEncodesCommands := by
  refine ⟨assembleWord_row, fun p => ?_⟩
  have hpwr : encode ∘ Instr.pwr = fun b => 0x3100#16 + zext16 b := funext (append_eq_add_zext16 0x31)
  have hfwr : encode ∘ Instr.fwr = fun b => 0x4400#16 + zext16 b := funext (append_eq_add_zext16 0x44)
  simp only [Pseudo.expand, List.map_cons, List.map_append, List.map_map, List.map_nil, hpwr, hfwr]
  exact ⟨rfl, rfl, rfl, rfl, rfl⟩

end Sys2Proof.Machine

/-! ## Every input is answered (R51, R56, R161, R172) -/

namespace Sys2Proof.Machine

theorem BlockFault.code_bounds (f : BlockFault) : 1 ≤ f.code ∧ f.code ≤ 4 := by
  cases f <;> decide

/-- A command word, legal or not, leaves the inputs alone and responds. -/
theorem runWord_answers (w : Word) (s : State) : ∃ t, runWord w s = .next t ∧ t.pending = s.pending ∧
    ((∃ d, t.response = some (.ok d)) ∨ ∃ f, t.response = some (.fault f)) := by
  cases hd : decode w with
  | reject why => exact ⟨_, runWord_of_decode_reject hd s, rfl, .inr ⟨_, rfl⟩⟩
  | command i =>
    rw [runWord_of_decode_command hd]
    rcases exec_cases i s with ⟨u, d, ⟨-, hpending, -⟩, he⟩ | ⟨f, he⟩
    · exact ⟨_, he, hpending, .inl ⟨d, rfl⟩⟩
    · exact ⟨_, he, rfl, .inr ⟨f, rfl⟩⟩

/-- Settles O4: by the host's next input; only a command is responded to. -/
theorem everyInputIsAnswered : Obligations.EveryInputIsAnswered := by
  intro s
  cases hp : s.pending with
  | nil => exact ⟨s, step_of_pending_nil hp, nofun⟩
  | cons x rest =>
    cases x with
    | reset => exact ⟨_, step_of_pending_reset hp, nofun⟩
    | command w =>
      obtain ⟨t, ht, hpending, hresponse⟩ := runWord_answers w (s.setPending rest)
      refine ⟨t, (step_of_pending_command hp).trans ht, ?_⟩
      rintro w' rest' ⟨⟩
      exact ⟨hpending, hresponse.imp_right fun ⟨f, hf⟩ => ⟨f, hf, f.code_bounds⟩⟩

end Sys2Proof.Machine

/-! ## The sequence check (R48) -/

namespace Sys2Proof.Machine

theorem pairOk_iff (q k : Byte) : pairOk q k = true ↔ q.toNat + k.toNat = 255 := by
  rw [pairOk, decide_eq_true_eq, ← BitVec.toNat_inj, BitVec.toNat_add, toNat_zext16, toNat_zext16]
  have hq := q.isLt
  have hk := k.isLt
  change (q.toNat + k.toNat) % 65536 = 255 ↔ _
  omega

/-- Settles O28: each form is the equation of the integers, the exclusive-or by way of the complement. -/
theorem sequenceCheckForms : Obligations.SequenceCheckForms := by
  intro q k
  have hq := q.isLt
  have hk := k.isLt
  have hnot : k = ~~~q ↔ q.toNat + k.toNat = 255 := by
    rw [← BitVec.toNat_inj, BitVec.toNat_not]
    omega
  refine ⟨pairOk_iff q k, ?_, hnot, by omega, ?_⟩
  · rw [← BitVec.toNat_inj, BitVec.toNat_sub]
    change k.toNat = (256 - q.toNat + 255) % 256 ↔ _
    omega
  · rw [← hnot, ← BitVec.xor_allOnes, ← BitVec.xor_right_inj q (x := k), ← BitVec.xor_assoc, BitVec.xor_self,
      BitVec.zero_xor]
    rfl

end Sys2Proof.Machine

/-! ## The frame that `PACK` builds (R46, R47, R103) -/

namespace Sys2Proof.Machine

theorem highByte_eq_ofNat (v : Word) : highByte v = BitVec.ofNat 8 (v.toNat / 256) := by
  apply BitVec.eq_of_toNat_eq
  rw [highByte, BitVec.extractLsb'_toNat, Nat.shiftRight_eq_div_pow, BitVec.toNat_ofNat]

theorem lowByte_eq_ofNat (v : Word) : lowByte v = BitVec.ofNat 8 (v.toNat % 256) := by
  apply BitVec.eq_of_toNat_eq
  rw [lowByte, BitVec.extractLsb'_toNat, Nat.shiftRight_zero, BitVec.toNat_ofNat, Nat.mod_mod]

theorem getElem?_frame_payload (m : Mode) (q : Byte) {p : List Byte} {k : Nat} (hk : k < p.length) :
    (frame m q p)[3 + k]? = p[k]? := by
  rw [frame, List.getElem?_append_left (by simp; omega), List.getElem?_append_right (by simp)]
  simp

theorem getElem?_frame_validator (m : Mode) (q : Byte) (p : List Byte) (k : Nat) :
    (frame m q p)[3 + p.length + k]? = (validatorBytes m p)[k]? := by
  have hindex : 3 + p.length + k - ([Config.soh, q, 0xFF - q] ++ p).length = k := by simp; omega
  rw [frame, List.getElem?_append_right (by simp; omega), hindex]

/-- `PACK` overwrites the frame's length of `FBUF` and no cell past it. -/
theorem read?_fbuf_packed (q : Byte) (s : State) (a : Nat) : (packed q s).fbuf.read? a =
    if a < frameLen s.mode then (frame s.mode q s.payload)[a]? else s.fbuf.read? a := by
  simp [packed, Memory.read?_writeAll, length_frame]

theorem read?_fbuf_packed_payload (q : Byte) (s : State) {k : Nat} (hk : k < 128) :
    (packed q s).fbuf.read? (3 + k) = some (s.byteAt .payload k) := by
  have hlen := le_frameLen s.mode
  rw [read?_fbuf_packed, if_pos (by omega), getElem?_frame_payload _ _ (by simpa using hk), State.payload,
    State.getElem?_bytesFrom, if_pos hk, Nat.zero_add]

theorem read?_fbuf_packed_validator (q : Byte) (s : State) {k : Nat} (hk : 131 + k < frameLen s.mode) :
    (packed q s).fbuf.read? (131 + k) = (validatorBytes s.mode s.payload)[k]? := by
  have hframe := getElem?_frame_validator s.mode q s.payload k
  rw [s.length_payload] at hframe
  rw [read?_fbuf_packed, if_pos hk, hframe]

theorem read?_fbuf_packed_beyond (q : Byte) (s : State) {a : Nat} (ha : frameLen s.mode ≤ a) :
    (packed q s).fbuf.read? a = s.fbuf.read? a := by
  rw [read?_fbuf_packed, if_neg ha.not_gt]

/-- Writing a validator and a frame leaves all but the two accumulators, the frame buffer and its count as it was. -/
theorem answered_setFrame_setValidator {s u : State} {p : List Byte} {m : Memory} {n : Byte}
    (h : u = (s.setValidator p).setFrame m n) (d : Word) : u.answered d = { s with
      sum := u.sum, crc := u.crc, fbuf := u.fbuf, flen := u.flen, response := some (.ok d) } := by
  subst h
  unfold State.setValidator
  split <;> rfl

theorem packed_answered_frame (q : Byte) (s : State) (d : Word) : (packed q s).answered d = { s with
    sum := (packed q s).sum, crc := (packed q s).crc, fbuf := (packed q s).fbuf, flen := (packed q s).flen,
    response := some (.ok d) } :=
  answered_setFrame_setValidator rfl d

theorem zext16_eq_ofNat (b : Byte) : zext16 b = BitVec.ofNat 16 b.toNat := by
  apply BitVec.eq_of_toNat_eq
  rw [toNat_zext16, BitVec.toNat_ofNat, Nat.mod_eq_of_lt (b.isLt.trans (by decide))]

theorem flen_packed_of_frameLen {q : Byte} {s : State} {n : Nat} (h : frameLen s.mode = n) :
    (packed q s).flen = BitVec.ofNat 8 n := by
  rw [← h]; rfl

/-- The registers and the end of the frame in checksum mode (R46). -/
theorem packed_of_checksum (q : Byte) {s : State} (hm : s.mode = .checksum) :
    (packed q s).flen = 132 ∧ (packed q s).sum = checksum s.payload ∧ (packed q s).crc = s.crc ∧
      (packed q s).fbuf.read? 131 = some (packed q s).sum ∧
      ∀ a, 132 ≤ a → (packed q s).fbuf.read? a = s.fbuf.read? a := by
  have hlen : frameLen s.mode = 132 := by rw [hm]; rfl
  have hsum : (packed q s).sum = checksum s.payload := by simp [packed, hm]
  refine ⟨flen_packed_of_frameLen hlen, hsum, by simp [packed, hm], ?_,
    fun a ha => read?_fbuf_packed_beyond q s (by omega)⟩
  have hread := read?_fbuf_packed_validator q s (k := 0) (by omega)
  simpa [hsum, hm, validatorBytes] using hread

/-- The registers and the end of the frame in CRC mode, the CRC's high byte first (R47). -/
theorem packed_of_crc (q : Byte) {s : State} (hm : s.mode = .crc) :
    (packed q s).flen = 133 ∧ (packed q s).crc = crc16 s.payload ∧ (packed q s).sum = s.sum ∧
      (packed q s).fbuf.read? 131 = some (BitVec.ofNat 8 ((packed q s).crc.toNat / 256)) ∧
      (packed q s).fbuf.read? 132 = some (BitVec.ofNat 8 ((packed q s).crc.toNat % 256)) ∧
      ∀ a, 133 ≤ a → (packed q s).fbuf.read? a = s.fbuf.read? a := by
  have hlen : frameLen s.mode = 133 := by rw [hm]; rfl
  have hcrc : (packed q s).crc = crc16 s.payload := by simp [packed, hm]
  refine ⟨flen_packed_of_frameLen hlen, hcrc, by simp [packed, hm], ?_, ?_,
    fun a ha => read?_fbuf_packed_beyond q s (by omega)⟩
  · have hread := read?_fbuf_packed_validator q s (k := 0) (by omega)
    rw [hcrc, ← highByte_eq_ofNat]
    simpa [hm, validatorBytes] using hread
  · have hread := read?_fbuf_packed_validator q s (k := 1) (by omega)
    rw [hcrc, ← lowByte_eq_ofNat]
    simpa [hm, validatorBytes] using hread

/-- Settles O29: the guard of the payload's length, then the layout of the frame that `packed` holds. -/
theorem packBuildsTheFrame : Obligations.PackBuildsTheFrame := by
  refine ⟨fun s q hplen => ?_, fun s q hplen => ?_, takesAnyByte_of_opcode (fun _ => rfl) (fun _ => rfl) fun _ => rfl⟩
  · rcases execPack_cases q s with ⟨-, he⟩ | ⟨hne, -⟩
    · refine ⟨_, he, ?_⟩
      simp only [State.answered_sum, State.answered_crc, State.answered_fbuf, State.answered_flen]
      have hheader : ∀ i < 3, (packed q s).fbuf.read? i = (frame s.mode q s.payload)[i]? := fun i hi =>
        (read?_fbuf_packed q s i).trans (if_pos ((hi.trans (by decide)).trans_le (le_frameLen s.mode)))
      refine ⟨?_, hheader 0 (by decide), hheader 1 (by decide), hheader 2 (by decide),
        fun i hi => read?_fbuf_packed_payload q s hi, packed_of_checksum q, packed_of_crc q⟩
      rw [zext16_eq_ofNat]
      exact packed_answered_frame ..
    · exact absurd (congrArg BitVec.toNat hplen) hne
  · rcases execPack_cases q s with ⟨heq, -⟩ | ⟨-, he⟩
    · exact absurd (BitVec.eq_of_toNat_eq heq) hplen
    · exact he

end Sys2Proof.Machine

/-! ## Issuing commands, and loading `PBUF` from empty (R58, R91, R92) -/

namespace Sys2Proof.Machine

/-- Issuing a well-formed command is executing it: its word decodes to it. -/
theorem issue_of_exec {i : Instr} {s t : State} (hwf : i.wellFormed = true) (h : exec i s = .next t) : issue i s = t := by
  rw [issue, runWord_of_decode_command (decode_encode hwf), h]

theorem issueAll_append (is js : List Instr) (s : State) : issueAll (is ++ js) s = issueAll js (issueAll is s) := by
  induction is generalizing s with
  | nil => rfl
  | cons i is ih => exact ih (issue i s)

/-- `PBUF` holds these bytes from index 0 on, and `PLEN` is their number. -/
structure State.Loaded (s : State) (p : List Byte) : Prop where
  plen : s.plen.toNat = p.length
  bytes : ∀ i < p.length, s.pbuf.read? i = p[i]?

namespace State.Loaded

variable {s : State} {p : List Byte}

theorem answered (h : s.Loaded p) (d : Word) : (s.answered d).Loaded p := ⟨h.plen, h.bytes⟩

theorem pclr (s : State) : (issue .pclr s).Loaded [] := by
  rw [issue_of_exec (t := (s.setPayload s.pbuf 0).answered 0) rfl rfl]
  exact ⟨rfl, fun i hi => absurd hi (Nat.not_lt_zero i)⟩

/-- Bytes stored from `PLEN` on, and counted, extend the loaded ones. -/
theorem writeAll (h : s.Loaded p) (vs : List Byte) {n : Byte} (hn : n.toNat = p.length + vs.length) (d : Word) :
    ((s.setPayload (s.pbuf.writeAll s.plen.toNat vs) n).answered d).Loaded (p ++ vs) := by
  refine ⟨hn.trans List.length_append.symm, fun i hi => ?_⟩
  rw [List.length_append] at hi
  rw [State.answered_pbuf, State.setPayload_pbuf, Memory.read?_writeAll, h.plen]
  by_cases hold : i < p.length
  · rw [if_neg (by omega), h.bytes i hold, List.getElem?_append_left hold]
  · rw [if_pos (by omega), List.getElem?_append_right (by omega)]

theorem pwr (h : s.Loaded p) (hlt : p.length < 128) (b : Byte) : (issue (.pwr b) s).Loaded (p ++ [b]) := by
  have hroom : s.plen.toNat < bufferSize .payload := h.plen.trans_lt hlt
  rw [issue_of_exec rfl rfl]
  simp only [appendCell, if_pos hroom]
  refine h.writeAll [b] ?_ 0
  rw [toNat_bumpCount_of_lt (hroom.trans (by decide)), h.plen]
  rfl

theorem pwrs (h : s.Loaded p) (vs : List Byte) (hfits : p.length + vs.length ≤ 128) :
    (issueAll (vs.map .pwr) s).Loaded (p ++ vs) := by
  induction vs generalizing s p with
  | nil => rwa [List.append_nil]
  | cons v vs ih =>
    rw [List.length_cons] at hfits
    rw [List.append_cons]
    exact ih (h.pwr (by omega) v) (by simp; omega)

theorem ppad (h : s.Loaded p) (hle : p.length ≤ 128) :
    (issue .ppad s).Loaded (p ++ List.replicate (128 - p.length) Config.filler) := by
  rcases execPpad_cases s with ⟨-, he⟩ | ⟨hge, he⟩
  · rw [issue_of_exec (i := .ppad) rfl he, padCells, ← h.plen]
    refine h.writeAll _ ?_ 0
    rw [List.length_replicate, h.plen]
    exact (Nat.add_sub_cancel' hle).symm
  · have hfull : 128 - p.length = 0 := Nat.sub_eq_zero_of_le (hge.trans_eq h.plen)
    rw [issue_of_exec (i := .ppad) rfl he, hfull, List.replicate_zero, List.append_nil]
    exact h.answered 0

/-- `PLOADPAD` loads its bytes and the filler after them. -/
theorem ploadpad (s : State) {p : List Byte} (hle : p.length ≤ 128) :
    (issueAll (Pseudo.ploadpad p).expand s).Loaded (p ++ List.replicate (128 - p.length) Config.filler) := by
  rw [Pseudo.expand, issueAll_append]
  exact ((pclr s).pwrs p (by simpa using hle)).ppad hle

theorem bytesFrom_zero (h : s.Loaded p) {n : Nat} (hn : n ≤ p.length) : s.bytesFrom .payload 0 n = p.take n := by
  apply List.ext_getElem?
  intro k
  rw [State.getElem?_bytesFrom, List.getElem?_take, Nat.zero_add]
  by_cases hk : k < n
  · have hkp : k < p.length := hk.trans_le hn
    have hread : s.pbuf.read? k = some p[k] := (h.bytes k hkp).trans (List.getElem?_eq_getElem hkp)
    rw [if_pos hk, if_pos hk, State.byteAt_of_read? (b := .payload) hread, List.getElem?_eq_getElem hkp]
  · rw [if_neg hk, if_neg hk]

theorem payload (h : s.Loaded p) (hlen : p.length = 128) : s.payload = p :=
  (h.bytesFrom_zero hlen.ge).trans (List.take_of_length_le hlen.le)

/-- `PTRIM` over a whole loaded payload. -/
theorem ptrim (h : s.Loaded p) (hlen : p.length = 128) :
    issue .ptrim s = s.answered (BitVec.ofNat 16 (trimLen p)) := by
  rcases execPtrim_cases s with ⟨-, he⟩ | ⟨hne, -⟩
  · rw [issue_of_exec (i := .ptrim) rfl he, h.payload hlen]
  · exact absurd (h.plen.trans hlen) hne

end State.Loaded

/-! ## Reading a buffer out (R93, R106) -/

theorem lowByte_zext16 (b : Byte) : lowByte (zext16 b) = b := by
  apply BitVec.eq_of_toNat_eq
  rw [lowByte, BitVec.extractLsb'_toNat, toNat_zext16, Nat.shiftRight_zero, Nat.mod_eq_of_lt b.isLt]

theorem readOut_succ {rd : Byte → Instr} {i n : Nat} {s t : State} {b : Byte}
    (h : issue (rd (BitVec.ofNat 8 i)) s = t.answered (zext16 b)) :
    (readOut rd i (n + 1) s).2 = b :: (readOut rd (i + 1) n (t.answered (zext16 b))).2 := by
  simp [readOut, h, okData?, lowByte_zext16]

/-- The indexed reads of a run of valid indices answer the bytes there. -/
theorem readOut_eq_bytesFrom {b : Buffer} {rd : Byte → Instr} (hwf : ∀ imm, (rd imm).wellFormed = true)
    (hrd : ∀ imm u, exec (rd imm) u = readIndexed b imm u) {i n : Nat} {s : State}
    (hvalid : i + n ≤ validCount b (s.count b)) : (readOut rd i n s).2 = s.bytesFrom b i n := by
  induction n generalizing i s with
  | zero => rfl
  | succ n ih =>
    have hsize : validCount b (s.count b) ≤ 133 := (validCount_le b _).trans (by cases b <;> decide)
    have hi : (BitVec.ofNat 8 i).toNat = i := by rw [BitVec.toNat_ofNat]; omega
    rcases readIndexed_cases b (BitVec.ofNat 8 i) s with ⟨-, he⟩ | ⟨hge, -⟩
    · rw [hi] at he
      rw [readOut_succ (issue_of_exec (hwf _) ((hrd _ s).trans he)), State.bytesFrom]
      have hcount : ∀ d, (s.answered d).count b = s.count b := fun d => by cases b <;> rfl
      have hbytes : ∀ d, (s.answered d).bytesFrom b (i + 1) n = s.bytesFrom b (i + 1) n := fun d =>
        State.bytesFrom_congr fun k _ => by cases b <;> rfl
      rw [ih (by rw [hcount]; omega), hbytes]
    · omega

theorem State.Loaded.readOut_prd {s : State} {p : List Byte} (h : s.Loaded p) (hle : p.length ≤ 128) {n : Nat}
    (hn : n ≤ p.length) : (readOut .prd 0 n s).2 = p.take n := by
  have hvalid : 0 + n ≤ validCount .payload s.plen := by
    rw [validCount, h.plen, Nat.zero_add]
    exact le_min hn (hn.trans hle)
  rw [readOut_eq_bytesFrom (b := .payload) (fun _ => rfl) (fun _ _ => rfl) hvalid, h.bytesFrom_zero hn]

/-! ## Trimming (R95, R97) -/

theorem trimLen_append_filler {p : List Byte} (h : p.getLast? ≠ some Config.filler) (k : Nat) :
    trimLen (p ++ List.replicate k Config.filler) = p.length := by
  rw [trimLen, List.reverse_append, List.reverse_replicate, List.dropWhile_append_of_pos (by simp)]
  rw [List.getLast?_eq_head?_reverse] at h
  rw [← p.length_reverse]
  cases hp : p.reverse with
  | nil => rfl
  | cons b r =>
    rw [hp, List.head?_cons] at h
    rw [List.dropWhile_cons_of_neg (by simpa using h)]

theorem length_append_filler {p : List Byte} (hle : p.length ≤ 128) :
    (p ++ List.replicate (128 - p.length) Config.filler).length = 128 := by
  rw [List.length_append, List.length_replicate, Nat.add_sub_cancel' hle]

/-- After `PLOADPAD`, `PTRIM` responds with the trimmed length of the loaded bytes with the filler after them. -/
theorem ptrim_ploadpad (s : State) {p : List Byte} (hle : p.length ≤ 128) :
    issue .ptrim (issueAll (Pseudo.ploadpad p).expand s) = (issueAll (Pseudo.ploadpad p).expand s).answered
      (BitVec.ofNat 16 (trimLen (p ++ List.replicate (128 - p.length) Config.filler))) :=
  (State.Loaded.ploadpad s hle).ptrim (length_append_filler hle)

/-- Settles O25: a payload that does not end in the filler is what trimming leaves of it, whatever run of filler follows. -/
theorem padThenTrimGivesTheLength : Obligations.PadThenTrimGivesTheLength := by
  refine ⟨fun s p hle hlast => ?_, fun s p j hle hlast => ?_⟩
  · have hloaded := State.Loaded.ploadpad s hle
    rw [ptrim_ploadpad s hle, trimLen_append_filler hlast]
    refine ⟨rfl, ?_⟩
    rw [(hloaded.answered _).readOut_prd (length_append_filler hle).le (by simp), List.take_left]
  · rw [ptrim_ploadpad s (by simpa using hle), List.append_assoc, List.replicate_append_replicate,
      trimLen_append_filler hlast]
    rfl

end Sys2Proof.Machine

/-! ## Commands without operand, and responses with a register (R51, R54) -/

namespace Sys2Proof.Machine

/-- The opcode of a command without operand selects the command's own arm, which tests the operand field for zero. -/
theorem decode_opcode_append {i : Instr} (h : i.operandMask = 0xFF) (imm : Byte) :
    decode (i.opcode ++ imm) = decodeNoOperand i imm := by
  simp only [decode, opField_append, immField_append]
  cases i with
  | setmode _ => exact absurd h (show 0xFE#8 ≠ 0xFF#8 by decide)
  | sumadd _ | crcupd _ | pwr _ | prd _ | pack _ | fwr _ | frd _ => exact absurd h (show 0x00#8 ≠ 0xFF#8 by decide)
  | _ => rfl

theorem takesNoOperand_of_operandMask {i : Instr} (h : i.operandMask = 0xFF) : TakesNoOperand i i.opcode := by
  refine ⟨?_, (decode_opcode_append h 0).trans (if_pos rfl), fun imm himm s => ?_⟩
  · rw [encode, operand_of_operandMask h]
    rfl
  · exact runWord_of_decode_reject ((decode_opcode_append h imm).trans (if_neg himm)) s

theorem respond_zeroExtend {n : Nat} (x : BitVec n) (s : State) :
    respond (x.zeroExtend 16) s = .next { s with response := some (.ok (BitVec.ofNat 16 x.toNat)) } := by
  rw [BitVec.ofNat_toNat]
  rfl

theorem Mode.data_eq_ite (m : Mode) : m.data = if m = .crc then 0x0001 else 0x0000 := by cases m <;> rfl

/-- An empty buffer has no valid index. -/
theorem readIndexed_of_count_eq_zero {b : Buffer} {s : State} (h : s.count b = 0) (imm : Byte) :
    readIndexed b imm s = .next (s.faulted .indexOutOfRange) := by
  rcases readIndexed_cases b imm s with ⟨hlt, -⟩ | ⟨-, he⟩
  · have hvalid : validCount b (s.count b) = 0 := by rw [h]; exact Nat.zero_min _
    omega
  · exact he

/-- Settles O11: every read command responds with its register, widened, over the state as it is. -/
theorem readCommandsRespondTheirRegister : Obligations.ReadCommandsRespondTheirRegister := by
  refine ⟨fun s => ⟨respond_zeroExtend s.sum s, rfl, respond_zeroExtend s.plen s, respond_zeroExtend s.flen s,
    respond_zeroExtend s.rseq s, respond_zeroExtend s.stat s, ?_, respond_zeroExtend s.err s⟩, ?_⟩
  · rw [← Mode.data_eq_ite]
    rfl
  · refine ⟨?_, ?_, ?_, ?_, ?_, ?_, ?_, ?_⟩ <;> exact takesNoOperand_of_operandMask rfl

/-- Settles O12: a clear command writes its register only, and a fill count of zero makes every indexed read fault. -/
theorem clearCommandsClear : Obligations.ClearCommandsClear := by
  refine ⟨fun s => ⟨rfl, rfl, rfl, rfl⟩, fun s t imm h => ?_, fun s t imm h => ?_, ?_⟩
  · obtain rfl := respond_next h
    exact readIndexed_of_count_eq_zero (b := .payload) (s := (s.setPayload s.pbuf 0).answered 0) rfl imm
  · obtain rfl := respond_next h
    exact readIndexed_of_count_eq_zero (b := .frame) (s := (s.setFrame s.fbuf 0).answered 0) rfl imm
  · refine ⟨?_, ?_, ?_, ?_⟩ <;> exact takesNoOperand_of_operandMask rfl

end Sys2Proof.Machine

/-! ## The checksum as a sum (R65, R66, R71) -/

namespace Sys2Proof.Machine

theorem toNat_sumStep (a b : Byte) : (sumStep a b).toNat = (a.toNat + b.toNat) % 256 := BitVec.toNat_add a b

theorem checksum_append (a b : List Byte) : checksum (a ++ b) = sumStep (checksum a) (checksum b) := by
  rw [checksum, List.foldl_append, foldl_sumStep]
  rfl

/-- The checksum is the sum in the ring of bytes. -/
theorem checksum_eq_sum (p : List Byte) : checksum p = p.sum := by
  induction p with
  | nil => rfl
  | cons b p ih => rw [checksum_cons, List.sum_cons, ih]

theorem toNat_checksum (p : List Byte) : (checksum p).toNat = (p.map BitVec.toNat).sum % 256 := by
  induction p with
  | nil => rfl
  | cons b p ih => rw [checksum_cons, BitVec.toNat_add, ih, List.map_cons, List.sum_cons, Nat.add_mod_mod]

theorem toNat_checksum_replicate (n : Nat) (b : Byte) : (checksum (List.replicate n b)).toNat = n * b.toNat % 256 := by
  rw [toNat_checksum, List.map_replicate, List.sum_replicate, smul_eq_mul]

/-- 128 is half the modulus, so only the parity of the byte is left. -/
theorem checksum_replicate_128 (b : Byte) :
    checksum (List.replicate 128 b) = if b.toNat % 2 = 0 then 0x00 else 0x80 := by
  apply BitVec.eq_of_toNat_eq
  rw [toNat_checksum_replicate, apply_ite BitVec.toNat]
  change 128 * b.toNat % 256 = if b.toNat % 2 = 0 then 0 else 128
  split <;> omega

/-- A byte changed by `d` changes the checksum by `d`. -/
theorem checksum_set_add {a : List Byte} {i : Nat} (hi : i < a.length) (d : Byte) :
    checksum (a.set i (a[i] + d)) = checksum a + d := by
  rw [checksum_eq_sum, checksum_eq_sum, List.sum_set', dif_pos hi, neg_add_cancel_left]

/-- Settles O14: the checksum is the sum of the bytes as numbers, reduced at every step instead of at the end. -/
theorem checksumIsTheSum : Obligations.ChecksumIsTheSum :=
  ⟨toNat_checksum, rfl, fun p b => (checksum_append p [b]).trans (by rw [checksum_cons, checksum_nil, add_zero]),
    toNat_sumStep, checksum_replicate_128 0x00, checksum_replicate_128 0x01⟩

/-- Settles O15: the laws are those of a finite sum in a commutative group. -/
theorem checksumLaws : Obligations.ChecksumLaws := by
  refine ⟨checksum_append, fun a b hperm => ?_, fun b => ⟨toNat_checksum_replicate 128 b, checksum_replicate_128 b⟩,
    fun a i hi d => ⟨checksum_set_add hi d, fun hd => ?_⟩, fun a i j hi hj d hij => ?_⟩
  · rw [checksum_eq_sum, checksum_eq_sum, hperm.sum_eq]
  · rw [checksum_set_add hi]
    exact fun h => hd (add_eq_left.1 h)
  · have hkept : (a.set i (a[i] + d))[j]'(by simpa using hj) = a[j] := List.getElem_set_ne hij _
    rw [sub_eq_add_neg, ← hkept, checksum_set_add, checksum_set_add hi, add_neg_cancel_right]

end Sys2Proof.Machine

/-! ## The accumulator over a run of commands, and over the payload (R68, R70) -/

namespace Sys2Proof.Machine

theorem State.bytesFrom_eq_map_range (s : State) (b : Buffer) (i n : Nat) :
    s.bytesFrom b i n = (List.range n).map fun k => s.byteAt b (i + k) := by
  apply List.ext_getElem (by simp)
  intro k hk _
  rw [State.getElem_bytesFrom, List.getElem_map, List.getElem_range]

theorem State.payload_eq_map_range (s : State) : s.payload = (List.range 128).map (s.byteAt .payload) := by
  simp [State.payload, State.bytesFrom_eq_map_range]

/-- A run of `SUMADD`s folds its operands into `SUM`. -/
theorem sum_issueAll_sumadd (p : List Byte) (s : State) : (issueAll (p.map .sumadd) s).sum = s.sum + checksum p := by
  rw [← foldl_sumStep]
  induction p generalizing s with
  | nil => rfl
  | cons b p ih => rw [List.map_cons, issueAll, ih, issue_of_exec (i := .sumadd b) rfl rfl]; rfl

/-- Settles O13: 256 copies of a byte sum to a multiple of the modulus. -/
theorem sumaddAddsModulo256 : Obligations.SumaddAddsModulo256 := by
  refine ⟨fun s imm => ⟨sumStep s.sum imm, toNat_sumStep s.sum imm, rfl⟩, fun s imm => ?_,
    takesAnyByte_of_opcode (fun _ => rfl) (fun _ => rfl) (fun _ => rfl)⟩
  have hzero : checksum (List.replicate 256 imm) = 0 :=
    BitVec.eq_of_toNat_eq ((toNat_checksum_replicate 256 imm).trans (Nat.mul_mod_right 256 imm.toNat))
  rw [← List.map_replicate, sum_issueAll_sumadd, hzero, add_zero]

/-- Settles O16: the value is the checksum of the payload, which the issued commands fold from the cleared `SUM`. -/
theorem bsumSumsThePayload : Obligations.BsumSumsThePayload := by
  refine ⟨fun s hplen => ⟨checksum s.payload, ?_, ?_, ?_⟩, fun s hplen => ?_, takesNoOperand_of_operandMask rfl⟩
  · rw [toNat_checksum, s.payload_eq_map_range, List.map_map]
    rfl
  · rw [issueAll, sum_issueAll_sumadd, issue_of_exec (i := .sumclr) rfl rfl]
    exact (zero_add _).symm
  · rcases execBsum_cases s with ⟨-, he⟩ | ⟨hne, -⟩
    · rw [← zext16_eq_ofNat]
      exact he
    · exact absurd (congrArg BitVec.toNat hplen) hne
  · rcases execBsum_cases s with ⟨heq, -⟩ | ⟨-, he⟩
    · exact absurd (BitVec.eq_of_toNat_eq heq) hplen
    · exact he

end Sys2Proof.Machine

/-! ## One step of the CRC: the bit-serial form, the table's listing, what it keeps apart (R75, R76, R78) -/

namespace Sys2Proof.Machine

/-- The low byte has no bit that a shift feeds back, so only the high byte goes by way of the table. -/
theorem crcStepBits_eq_crcStep (c : Word) (b : Byte) : crcStepBits c b = crcStep c b := by
  have hbytes : c ^^^ zext16 b <<< 8 = zext16 (highByte c ^^^ b) <<< 8 ^^^ zext16 (lowByte c) := by
    rw [zext16_xor, BitVec.shiftLeft_xor_distrib]
    nth_rw 1 [word_eq_bytes c]
    ac_rfl
  rw [crcStepBits, hbytes, crcShiftN_xor, crcShiftN_low, ← shiftLeft_eight, BitVec.xor_comm]
  rfl

/-- Settles O18: by the two bytes of the register, which is linear. -/
theorem bitSerialStepEqualsTableStep : Obligations.BitSerialStepEqualsTableStep := crcStepBits_eq_crcStep

theorem crcStep_eq_crcShiftN (c : Word) (b : Byte) : crcStep c b = crcShiftN 8 (c ^^^ zext16 b <<< 8) :=
  (crcStepBits_eq_crcStep c b).symm

theorem crcStep_xor (c d : Word) (a b : Byte) : crcStep (c ^^^ d) (a ^^^ b) = crcStep c a ^^^ crcStep d b := by
  simp only [crcStep_eq_crcShiftN, ← crcShiftN_xor, zext16_xor, BitVec.shiftLeft_xor_distrib]
  congr 1
  ac_rfl

@[simp] theorem crcStep_zero_zero : crcStep 0 0 = 0 := by decide

theorem crcShiftN_injective (n : Nat) : Function.Injective (crcShiftN n) := fun a b h =>
  xor_eq_zero_iff.1 (crcShiftN_eq_zero (n := n) ((crcShiftN_xor n a b).trans (xor_eq_zero_iff.2 h)))

/-- Two registers stay apart when they take the same byte. -/
theorem crcStep_left_injective (b : Byte) : Function.Injective (crcStep · b) := fun c d h => by
  simp only [crcStep_eq_crcShiftN] at h
  exact (xor_left_involutive _).injective (crcShiftN_injective 8 h)

/-- Two bytes lead one register to different values. -/
theorem crcStep_right_injective (c : Word) : Function.Injective (crcStep c) := fun a b h => by
  simp only [crcStep_eq_crcShiftN, ← crcShiftN_low] at h
  have hz : zext16 a = zext16 b :=
    crcShiftN_injective 8 ((xor_right_involutive c).injective (crcShiftN_injective 8 h))
  rw [← lowByte_zext16 a, hz, lowByte_zext16]

/-- Two bytes in a row are one word, taken in before sixteen shifts. -/
theorem crcStep_highByte_lowByte (c v : Word) :
    crcStep (crcStep c (highByte v)) (lowByte v) = crcShiftN 16 (c ^^^ v) := by
  rw [crcStep_eq_crcShiftN, crcStep_eq_crcShiftN, ← crcShiftN_low (lowByte v), ← crcShiftN_xor, BitVec.xor_assoc,
    ← word_eq_bytes]
  exact (crcShiftN_add 8 8 _).symm

/-- The table that the rule of R75 generates is the one that R75 lists (G1). -/
theorem crcTable_eq_getD_listing (i : Byte) : crcTable i = crcTableListing.getD i.toNat 0 := by
  revert i
  decide

theorem toNat_highByte (v : Word) : (highByte v).toNat = v.toNat / 256 := by
  rw [highByte_eq_ofNat, BitVec.toNat_ofNat]
  omega

/-- Settles O17: the table is the listing, read at the value of the index byte. -/
theorem crcupdFollowsTheListedTable : Obligations.CrcupdFollowsTheListedTable := by
  refine ⟨fun s imm => ?_, takesAnyByte_of_opcode (fun _ => rfl) (fun _ => rfl) (fun _ => rfl)⟩
  rw [← toNat_highByte, ← BitVec.toNat_xor, ← crcTable_eq_getD_listing]
  rfl

end Sys2Proof.Machine

/-! ## The CRC of a sequence (R77, R79) -/

namespace Sys2Proof.Machine

theorem foldl_crcStep_zipWith_xor {a b : List Byte} (hlen : a.length = b.length) (c d : Word) :
    (List.zipWith (· ^^^ ·) a b).foldl crcStep (c ^^^ d) = a.foldl crcStep c ^^^ b.foldl crcStep d := by
  induction a generalizing b c d with
  | nil =>
    obtain rfl := List.eq_nil_of_length_eq_zero hlen.symm
    rfl
  | cons x a ih =>
    cases b with
    | nil => cases hlen
    | cons y b =>
      rw [List.zipWith_cons_cons, List.foldl_cons, crcStep_xor]
      exact ih (Nat.succ.inj hlen) (crcStep c x) (crcStep d y)

theorem crc16_zero_cons (p : List Byte) : crc16 (0x00 :: p) = crc16 p :=
  congrArg (p.foldl crcStep) crcStep_zero_zero

theorem crc16_replicate_zero (n : Nat) : crc16 (List.replicate n 0x00) = 0x0000 := by
  induction n with
  | zero => rfl
  | succ n ih => rw [List.replicate_succ, crc16_zero_cons, ih]

/-- A payload with two bytes after it: the register takes them in as one word. -/
theorem crc16_append_word (p : List Byte) (v : Word) :
    crc16 (p ++ [highByte v, lowByte v]) = crcShiftN 16 (crc16 p ^^^ v) := by
  rw [crc16, List.foldl_append]
  exact crcStep_highByte_lowByte (crc16 p) v

/-- Two registers stay apart over any bytes they both take. -/
theorem foldl_crcStep_injective (p : List Byte) : Function.Injective (p.foldl crcStep) := by
  induction p with
  | nil => exact Function.injective_id
  | cons b p ih => exact ih.comp (crcStep_left_injective b)

/-- Sequences that differ in one byte at most have the same CRC only where they are equal. -/
theorem crc16_set_injective {p : List Byte} {i : Nat} (hi : i < p.length) :
    Function.Injective fun b => crc16 (p.set i b) := fun a b h => by
  simp only [crc16, List.set_eq_take_append_cons_drop, hi, if_true, List.foldl_append, List.foldl_cons] at h
  exact crcStep_right_injective _ (foldl_crcStep_injective (p.drop (i + 1)) h)

theorem one_shiftLeft_ne_zero {k : Nat} (hk : k < 8) : 1#8 <<< k ≠ 0 := by
  revert k
  decide

/-- Settles O19: the register is linear and no step loses anything. -/
theorem crcLaws : Obligations.CrcLaws := by
  refine ⟨fun a b hlen => foldl_crcStep_zipWith_xor hlen 0 0, crc16_replicate_zero, crc16_zero_cons, fun p v => ?_, ?_,
    fun p i hi k hk h => ?_⟩
  · rw [crc16_append_word]
    constructor
    · exact fun h => (xor_eq_zero_iff.1 (crcShiftN_eq_zero h)).symm
    · rintro rfl
      rw [BitVec.xor_self]
      exact crcShiftN_zero 16
  · decide
  · have hbyte : p[i] ^^^ 1#8 <<< k = p[i] := crc16_set_injective hi (by simpa using h)
    exact one_shiftLeft_ne_zero hk (xor_left_eq_self_iff.1 hbyte)

end Sys2Proof.Machine

/-! ## The generator over a run of commands, and over the payload (R81, R83) -/

namespace Sys2Proof.Machine

/-- A run of `CRCUPD`s folds its operands into `CRC`. -/
theorem crc_issueAll_crcupd (p : List Byte) (s : State) :
    (issueAll (p.map .crcupd) s).crc = p.foldl crcStep s.crc := by
  induction p generalizing s with
  | nil => rfl
  | cons b p ih => rw [List.map_cons, issueAll, ih, issue_of_exec (i := .crcupd b) rfl rfl]; rfl

/-- Settles O20: the value is the CRC of the payload, which the issued commands fold from the cleared `CRC`. -/
theorem bcrcRunsOverThePayload : Obligations.BcrcRunsOverThePayload := by
  refine ⟨fun s hplen => ⟨crc16 s.payload, ?_, ?_, ?_⟩, fun s hplen => ?_, takesNoOperand_of_operandMask rfl⟩
  · rw [s.payload_eq_map_range]
    rfl
  · rw [issueAll, crc_issueAll_crcupd, issue_of_exec (i := .crcclr) rfl rfl]
    rfl
  · rcases execBcrc_cases s with ⟨-, he⟩ | ⟨hne, -⟩
    · exact he
    · exact absurd (congrArg BitVec.toNat hplen) hne
  · rcases execBcrc_cases s with ⟨heq, -⟩ | ⟨-, he⟩
    · exact absurd (BitVec.eq_of_toNat_eq heq) hplen
    · exact he

end Sys2Proof.Machine

/-! ## Trimming, as the place of the last byte that is not filler (R95, R96) -/

namespace Sys2Proof.Machine

/-- Any sequence is one that does not end in the filler with a run of filler after it. -/
theorem exists_eq_append_filler (p : List Byte) : ∃ (q : List Byte) (k : Nat),
    q.getLast? ≠ some Config.filler ∧ p = q ++ List.replicate k Config.filler := by
  induction p using List.reverseRecOn with
  | nil => exact ⟨[], 0, by simp, rfl⟩
  | append_singleton p b ih =>
    by_cases hb : b = Config.filler
    · obtain ⟨q, k, hq, hp⟩ := ih
      exact ⟨q, k + 1, hq, by rw [hp, hb, List.replicate_succ', List.append_assoc]⟩
    · exact ⟨p ++ [b], 0, by simpa using hb, (List.append_nil _).symm⟩

theorem trimLen_le_length (p : List Byte) : trimLen p ≤ p.length := by
  obtain ⟨q, k, hq, rfl⟩ := exists_eq_append_filler p
  rw [trimLen_append_filler hq, List.length_append]
  exact Nat.le_add_right ..

/-- The byte just below the trimmed length is not filler. -/
theorem getElem?_pred_trimLen_ne_filler {p : List Byte} (h : trimLen p ≠ 0) :
    p[trimLen p - 1]? ≠ some Config.filler := by
  obtain ⟨q, k, hq, rfl⟩ := exists_eq_append_filler p
  rw [trimLen_append_filler hq] at h ⊢
  rwa [List.getElem?_append_left (Nat.sub_one_lt h), ← List.getLast?_eq_getElem?]

/-- Every byte from the trimmed length on is filler. -/
theorem getElem?_eq_filler_of_trimLen_le {p : List Byte} {i : Nat} (hi : trimLen p ≤ i) (hlt : i < p.length) :
    p[i]? = some Config.filler := by
  obtain ⟨q, k, hq, rfl⟩ := exists_eq_append_filler p
  rw [trimLen_append_filler hq] at hi
  rw [List.length_append, List.length_replicate] at hlt
  rw [List.getElem?_append_right hi, List.getElem?_replicate, if_pos (by omega)]

theorem State.getElem?_payload (s : State) {i : Nat} (hi : i < 128) : s.payload[i]? = some (s.byteAt .payload i) := by
  rw [State.payload, State.getElem?_bytesFrom, if_pos hi, Nat.zero_add]

/-- Settles O24: the byte below the trimmed length is not filler, and every byte from there on is. -/
theorem ptrimCountsOffTrailingFiller : Obligations.PtrimCountsOffTrailingFiller := by
  refine ⟨fun s hplen => ?_, fun s hplen => ?_, takesNoOperand_of_operandMask rfl⟩
  · have hle : trimLen s.payload ≤ 128 := (trimLen_le_length _).trans_eq s.length_payload
    refine ⟨trimLen s.payload, hle, ?_, ?_, fun m hm hend => ?_⟩
    · rcases execPtrim_cases s with ⟨-, he⟩ | ⟨hne, -⟩
      · exact he
      · exact absurd (congrArg BitVec.toNat hplen) hne
    · refine or_iff_not_imp_left.2 fun hpos hbyte => getElem?_pred_trimLen_ne_filler hpos ?_
      rw [s.getElem?_payload (by omega), hbyte]
    · by_contra hgt
      have hfiller := getElem?_eq_filler_of_trimLen_le (p := s.payload) (i := m - 1) (by omega)
        (by rw [s.length_payload]; omega)
      rw [s.getElem?_payload (by omega)] at hfiller
      exact hend.elim (by omega) fun hne => hne (Option.some.inj hfiller)
  · rcases execPtrim_cases s with ⟨heq, -⟩ | ⟨-, he⟩
    · exact absurd (BitVec.eq_of_toNat_eq heq) hplen
    · exact he

end Sys2Proof.Machine

/-! ## Padding, cell by cell, and the indexed reads (R92, R93, R106) -/

namespace Sys2Proof.Machine

/-- Padding overwrites every index from the count up to 127 and no other. -/
theorem read?_padCells (m : Memory) {count : Byte} (hlt : count.toNat < 128) (a : Nat) :
    (padCells m count).read? a = if count.toNat ≤ a ∧ a < 128 then some Config.filler else m.read? a := by
  rw [padCells, Memory.read?_writeAll, List.length_replicate, Nat.add_sub_cancel' hlt.le]
  split
  · exact List.getElem?_replicate.trans (if_pos (show a - count.toNat < 128 - count.toNat by omega))
  · rfl

/-- Settles O22: below 128 the padded cells are read one by one; from 128 on there is nothing to pad. -/
theorem ppadFillsWithTheFiller : Obligations.PpadFillsWithTheFiller := by
  refine ⟨fun s hlt => ?_, fun s hge => ?_, takesNoOperand_of_operandMask rfl⟩
  · rcases execPpad_cases s with ⟨-, he⟩ | ⟨hge, -⟩
    · exact ⟨_, he, rfl, read?_padCells s.pbuf hlt⟩
    · exact absurd hlt hge.not_gt
  · rcases execPpad_cases s with ⟨hlt, -⟩ | ⟨-, he⟩
    · exact absurd hlt hge.not_gt
    · exact he

/-- Below the number of valid bytes an indexed read responds with a byte, the one that the cell holds if it is written. -/
theorem readIndexed_of_lt_validCount {b : Buffer} {imm : Byte} {s : State}
    (h : imm.toNat < validCount b (s.count b)) : ∃ v : Byte,
    readIndexed b imm s = .next { s with response := some (.ok (BitVec.ofNat 16 v.toNat)) } ∧
      ∀ x, (s.cells b).read? imm.toNat = some x → v = x := by
  rcases readIndexed_cases b imm s with ⟨-, he⟩ | ⟨hge, -⟩
  · refine ⟨s.byteAt b imm.toNat, ?_, fun x => State.byteAt_of_read?⟩
    rw [he, zext16_eq_ofNat]
    rfl
  · exact absurd h hge.not_gt

/-- At or above the number of valid bytes an indexed read faults. -/
theorem readIndexed_of_validCount_le {b : Buffer} {imm : Byte} {s : State}
    (h : validCount b (s.count b) ≤ imm.toNat) : readIndexed b imm s = .next (s.faulted .indexOutOfRange) := by
  rcases readIndexed_cases b imm s with ⟨hlt, -⟩ | ⟨-, he⟩
  · exact absurd hlt h.not_gt
  · exact he

/-- Settles O23: `PRD` and `FRD` are the indexed read of the two buffers, and every operand byte encodes. -/
theorem indexedReadsReadValidBytes : Obligations.IndexedReadsReadValidBytes :=
  ⟨fun _ _ h => readIndexed_of_lt_validCount (b := .payload) h,
    fun _ _ h => readIndexed_of_validCount_le (b := .payload) h,
    fun _ _ h => readIndexed_of_lt_validCount (b := .frame) h,
    fun _ _ h => readIndexed_of_validCount_le (b := .frame) h,
    takesAnyByte_of_opcode (fun _ => rfl) (fun _ => rfl) (fun _ => rfl),
    takesAnyByte_of_opcode (fun _ => rfl) (fun _ => rfl) (fun _ => rfl)⟩

end Sys2Proof.Machine

/-! ## Appending, cell by cell, and the selection of the mode (R91, R100, R105) -/

namespace Sys2Proof.Machine

/-- Settles O21: the store and the count are those of the two shared operations of appending. -/
theorem appendCommandsAppend : Obligations.AppendCommandsAppend :=
  ⟨fun s imm => ⟨_, rfl, rfl, toNat_bumpCount s.plen, Memory.read?_appendCell .payload s.pbuf s.plen imm⟩,
    fun s imm => ⟨_, rfl, rfl, toNat_bumpCount s.flen, Memory.read?_appendCell .frame s.fbuf s.flen imm⟩,
    takesAnyByte_of_opcode (fun _ => rfl) (fun _ => rfl) (fun _ => rfl),
    takesAnyByte_of_opcode (fun _ => rfl) (fun _ => rfl) (fun _ => rfl)⟩

theorem decode_setmode_append (imm : Byte) : decode (0x40#8 ++ imm) = decodeSetmode imm := by
  simp only [decode, opField_append, immField_append]
  rfl

/-- Settles O27: the operands 0 and 1 name the two modes; any other fails the check of the decoder as it does that of the
command. -/
theorem setmodeSelectsTheMode : Obligations.SetmodeSelectsTheMode := by
  refine ⟨fun s => ⟨rfl, rfl, rfl, rfl⟩, fun s imm himm => ?_⟩
  have hreject : decode (0x40#8 ++ imm) = .reject .modeAboveOne :=
    (decode_setmode_append imm).trans (if_neg himm.not_ge)
  rcases execSetmode_cases imm s with ⟨hle, -⟩ | ⟨-, he⟩
  · exact absurd himm hle.not_gt
  · exact ⟨he, (runWord_of_decode_reject hreject s).trans he.symm⟩

end Sys2Proof.Machine

/-! ## What `UNPACK` takes from the frame (R108) -/

namespace Sys2Proof.Machine

theorem execUnpack_of_flen {s : State} (h : s.flen.toNat = frameLen s.mode) :
    execUnpack s = .next ((unpacked s).answered (s.unpackStat.zeroExtend 16)) := by
  rcases execUnpack_cases s with ⟨-, he⟩ | ⟨hne, -⟩
  · exact he
  · exact absurd h hne

theorem execUnpack_of_flen_ne {s : State} (h : s.flen.toNat ≠ frameLen s.mode) :
    execUnpack s = .next (s.faulted .invalidFrameSize) := by
  rcases execUnpack_cases s with ⟨heq, -⟩ | ⟨-, he⟩
  · exact absurd heq h
  · exact he

/-! ### The three bits of `STAT` -/

theorem getLsbD_statBits_zero : ∀ soh pair check : Bool, (statBits soh pair check).getLsbD 0 = check := by decide

theorem getLsbD_statBits_one : ∀ soh pair check : Bool, (statBits soh pair check).getLsbD 1 = pair := by decide

theorem getLsbD_statBits_two : ∀ soh pair check : Bool, (statBits soh pair check).getLsbD 2 = soh := by decide

theorem checkOk_iff_of_checksum {s : State} (hm : s.mode = .checksum) :
    s.checkOk = true ↔ checksum s.framePayload = s.byteAt .frame 131 := by
  simp [State.checkOk, hm]

theorem checkOk_iff_of_crc {s : State} (hm : s.mode = .crc) :
    s.checkOk = true ↔ crc16 s.framePayload = s.byteAt .frame 131 ++ s.byteAt .frame 132 := by
  simp [State.checkOk, hm]

/-! ### The state that `UNPACK` leaves -/

/-- Writing a validator, a payload and the results leaves all but the two accumulators, `PBUF`, `PLEN` and the result
registers as it was. -/
theorem unpacked_answered_frame (s : State) (d : Word) : (unpacked s).answered d = { s with
    sum := (unpacked s).sum, crc := (unpacked s).crc, pbuf := (unpacked s).pbuf, plen := 128,
    rseq := s.byteAt .frame 1, stat := s.unpackStat, response := some (.ok d) } := by
  unfold unpacked State.setValidator
  split <;> rfl

theorem read?_pbuf_unpacked (s : State) (a : Nat) : (unpacked s).pbuf.read? a =
    if a < 128 then some (s.byteAt .frame (3 + a)) else s.pbuf.read? a := by
  simp +contextual [unpacked, Memory.read?_writeAll, State.framePayload, State.getElem?_bytesFrom]

theorem State.framePayload_eq_map_range (s : State) :
    s.framePayload = (List.range 128).map fun i => s.byteAt .frame (3 + i) :=
  s.bytesFrom_eq_map_range .frame 3 128

@[simp] theorem unpacked_stat (s : State) : (unpacked s).stat = s.unpackStat := rfl

theorem unpacked_of_checksum {s : State} (hm : s.mode = .checksum) :
    (unpacked s).sum = checksum s.framePayload ∧ (unpacked s).crc = s.crc := by
  simp [unpacked, hm]

theorem unpacked_of_crc {s : State} (hm : s.mode = .crc) :
    (unpacked s).crc = crc16 s.framePayload ∧ (unpacked s).sum = s.sum := by
  simp [unpacked, hm]

/-- Settles O30: the guard of the frame's length, then the fields of `unpacked` and the bits of `unpackStat` one by one. -/
theorem unpackParsesTheFrame : Obligations.UnpackParsesTheFrame := by
  refine ⟨fun s hlen => ⟨_, execUnpack_of_flen hlen, ?_⟩, fun s hlen => execUnpack_of_flen_ne hlen,
    takesNoOperand_of_operandMask rfl⟩
  rw [← State.framePayload_eq_map_range, BitVec.zeroExtend, ← BitVec.ofNat_toNat]
  simp only [State.answered_sum, State.answered_crc, State.answered_pbuf, State.answered_stat, unpacked_stat]
  refine ⟨unpacked_answered_frame s _, fun i hi => (read?_pbuf_unpacked s i).trans (if_pos hi),
    fun a ha => (read?_pbuf_unpacked s a).trans (if_neg ha.not_gt), ?_, ?_, fun hm => ?_, fun hm => ?_⟩
  · rw [State.unpackStat, getLsbD_statBits_two, decide_eq_true_eq]
  · rw [State.unpackStat, getLsbD_statBits_one, pairOk_iff]
  · obtain ⟨hsum, hcrc⟩ := unpacked_of_checksum hm
    refine ⟨hsum, hcrc, ?_⟩
    rw [State.unpackStat, getLsbD_statBits_zero, checkOk_iff_of_checksum hm, hsum]
  · obtain ⟨hcrc, hsum⟩ := unpacked_of_crc hm
    refine ⟨hcrc, hsum, ?_⟩
    rw [State.unpackStat, getLsbD_statBits_zero, checkOk_iff_of_crc hm, hcrc, ← BitVec.toNat_inj,
      toNat_append_byte, Nat.mul_comm]

end Sys2Proof.Machine

/-! ## A frame in `FBUF`: how it gets there, and what `UNPACK` makes of it (R102, R103, R111) -/

namespace Sys2Proof.Machine

/-- `FBUF` holds these bytes from index 0 on, and `FLEN` is their number. -/
structure State.FrameLoaded (s : State) (f : List Byte) : Prop where
  flen : s.flen.toNat = f.length
  bytes : ∀ i < f.length, s.fbuf.read? i = f[i]?

namespace State.FrameLoaded

variable {s : State} {f : List Byte}

/-! ### Loading -/

theorem answered (h : s.FrameLoaded f) (d : Word) : (s.answered d).FrameLoaded f := ⟨h.flen, h.bytes⟩

theorem packed (q : Byte) (s : State) : (packed q s).FrameLoaded (frame s.mode q s.payload) := by
  have hlen : (frame s.mode q s.payload).length = frameLen s.mode := length_frame _ _ _ s.length_payload
  refine ⟨(toNat_frameLen s.mode).trans hlen.symm, fun i hi => ?_⟩
  rw [read?_fbuf_packed, if_pos (hi.trans_eq hlen)]

theorem fclr (s : State) : (issue .fclr s).FrameLoaded [] := by
  rw [issue_of_exec (t := (s.setFrame s.fbuf 0).answered 0) rfl rfl]
  exact ⟨rfl, fun i hi => absurd hi (Nat.not_lt_zero i)⟩

theorem fwr (h : s.FrameLoaded f) (hlt : f.length < 133) (b : Byte) : (issue (.fwr b) s).FrameLoaded (f ++ [b]) := by
  have hroom : s.flen.toNat < bufferSize .frame := h.flen.trans_lt hlt
  rw [issue_of_exec (i := .fwr b) rfl rfl]
  refine ⟨?_, fun i hi => ?_⟩
  · rw [State.answered_flen, State.setFrame_flen, toNat_bumpCount_of_lt (hroom.trans (by decide)), h.flen,
      List.length_append, List.length_singleton]
  · rw [List.length_append, List.length_singleton] at hi
    rw [State.answered_fbuf, State.setFrame_fbuf, Memory.read?_appendCell, h.flen]
    by_cases hold : i < f.length
    · rw [if_neg (fun hnew => hold.ne hnew.2), h.bytes i hold, List.getElem?_append_left hold]
    · obtain rfl : i = f.length := by omega
      rw [if_pos ⟨hlt, rfl⟩, List.getElem?_concat_length]

theorem fwrs (h : s.FrameLoaded f) (vs : List Byte) (hfits : f.length + vs.length ≤ 133) :
    (issueAll (vs.map .fwr) s).FrameLoaded (f ++ vs) := by
  induction vs generalizing s f with
  | nil => rwa [List.append_nil]
  | cons v vs ih =>
    rw [List.length_cons] at hfits
    rw [List.append_cons]
    exact ih (h.fwr (by omega) v) (by simp; omega)

/-- `FCLR` and a run of `FWR`s load their bytes, whatever stood in `FBUF`. -/
theorem fclr_fwrs (s : State) {f : List Byte} (hfits : f.length ≤ 133) :
    (issueAll (.fclr :: f.map .fwr) s).FrameLoaded f :=
  (fclr s).fwrs f (by simpa using hfits)

/-! ### Reading -/

theorem byteAt (h : s.FrameLoaded f) {i : Nat} {b : Byte} (hb : f[i]? = some b) : s.byteAt .frame i = b :=
  State.byteAt_of_read? (b := .frame) ((h.bytes i (List.getElem?_eq_some_iff.1 hb).1).trans hb)

theorem bytesFrom (h : s.FrameLoaded f) {i n : Nat} (hn : i + n ≤ f.length) :
    s.bytesFrom .frame i n = (f.drop i).take n := by
  apply List.ext_getElem (by simp; omega)
  intro k hk _
  rw [State.length_bytesFrom] at hk
  rw [State.getElem_bytesFrom, List.getElem_take, List.getElem_drop]
  exact h.byteAt (List.getElem?_eq_getElem (by omega))

theorem readOut_frd (h : s.FrameLoaded f) (hfits : f.length ≤ 133) : (readOut .frd 0 f.length s).2 = f := by
  have hvalid : 0 + f.length ≤ validCount .frame s.flen := by
    rw [validCount, h.flen, Nat.zero_add]
    exact le_min le_rfl hfits
  rw [readOut_eq_bytesFrom (b := .frame) (fun _ => rfl) (fun _ _ => rfl) hvalid, h.bytesFrom (Nat.zero_add _).le,
    List.drop_zero, List.take_length]

/-! ### Unpacking -/

variable {q : Byte} {p : List Byte}

theorem framePayload (h : s.FrameLoaded (frame s.mode q p)) (hp : p.length = 128) : s.framePayload = p := by
  have hroom : 3 + Config.payloadLen ≤ (frame s.mode q p).length :=
    (show 3 + Config.payloadLen ≤ 132 by decide).trans ((le_frameLen _).trans_eq (length_frame _ _ _ hp).symm)
  rw [State.framePayload, h.bytesFrom hroom]
  exact List.take_left' hp

/-- The validator in the frame is that of its payload, the CRC's high byte first (R46, R47). -/
theorem checkOk (h : s.FrameLoaded (frame s.mode q p)) (hp : p.length = 128) : s.checkOk = true := by
  have hbyte : ∀ k b, (validatorBytes s.mode p)[k]? = some b → s.byteAt .frame (131 + k) = b := fun k b hb =>
    h.byteAt (by rw [← hb, ← getElem?_frame_validator s.mode q, hp])
  cases hm : s.mode with
  | checksum =>
    rw [hm] at hbyte
    rw [checkOk_iff_of_checksum hm, h.framePayload hp]
    exact (hbyte 0 _ rfl).symm
  | crc =>
    rw [hm] at hbyte
    rw [checkOk_iff_of_crc hm, h.framePayload hp, hbyte 0 _ rfl, hbyte 1 _ rfl, highByte_append_lowByte]

theorem unpackStat (h : s.FrameLoaded (frame s.mode q p)) (hp : p.length = 128) : s.unpackStat = 0b111 := by
  have hpair : pairOk q (0xFF - q) = true :=
    have ⟨hpairOk, hsub, _⟩ := sequenceCheckForms q (0xFF - q)
    hpairOk.2 (hsub.1 rfl)
  rw [State.unpackStat, h.checkOk hp, h.byteAt (i := 0) rfl, h.byteAt (i := 1) rfl, h.byteAt (i := 2) rfl, hpair]
  rfl

end State.FrameLoaded

/-- `UNPACK` leaves a whole payload in `PBUF`. -/
theorem unpacked_loaded (s : State) : (unpacked s).Loaded s.framePayload := by
  refine ⟨s.length_framePayload.symm, fun i hi => ?_⟩
  rw [s.length_framePayload] at hi
  rw [read?_pbuf_unpacked, if_pos hi, State.framePayload, State.getElem?_bytesFrom, if_pos hi]

/-- A frame of the mode unpacks without fault, to the sequence byte, the payload and the validator that it was built from. -/
theorem execUnpack_of_frameLoaded {s : State} {m : Mode} {q : Byte} {p : List Byte} (hm : s.mode = m)
    (h : s.FrameLoaded (frame m q p)) (hp : p.length = 128) : ∃ u, exec .unpack s = .next u ∧
      u.response = some (.ok 0x0007) ∧ u.rseq = q ∧ u.payload = p ∧ u.plen = 128 ∧
      (m = .checksum → u.sum = checksum p) ∧ (m = .crc → u.crc = crc16 p) := by
  subst hm
  have hpayload : s.framePayload = p := h.framePayload hp
  refine ⟨_, execUnpack_of_flen (h.flen.trans (length_frame _ _ _ hp)), ?_, h.byteAt rfl, ?_, rfl,
    fun hm => ?_, fun hm => ?_⟩
  · rw [h.unpackStat hp]
    rfl
  · exact ((unpacked_loaded s).answered _).payload s.length_framePayload |>.trans hpayload
  · rw [State.answered_sum, (unpacked_of_checksum hm).1, hpayload]
  · rw [State.answered_crc, (unpacked_of_crc hm).1, hpayload]

theorem mode_issueAll_fwr (vs : List Byte) (s : State) : (issueAll (vs.map .fwr) s).mode = s.mode := by
  induction vs generalizing s with
  | nil => rfl
  | cons v vs ih => rw [List.map_cons, issueAll, ih, issue_of_exec (i := .fwr v) rfl rfl]; rfl

theorem execPack_of_plen {q : Byte} {s : State} (h : s.plen = 128) :
    execPack q s = .next ((packed q s).answered (BitVec.ofNat 16 (frameLen s.mode))) := by
  rcases execPack_cases q s with ⟨-, he⟩ | ⟨hne, -⟩
  · rw [he, zext16_eq_ofNat, toNat_frameLen]
  · exact absurd (congrArg BitVec.toNat h) hne

/-- Settles O31: `PACK` loads the frame into its own `FBUF`, and `FCLR` with `FWR`s into that of the other block. -/
theorem packThenUnpackRoundTrips : Obligations.PackThenUnpackRoundTrips := by
  intro s q hplen
  have hlen : (frame s.mode q s.payload).length = frameLen s.mode := length_frame _ _ _ s.length_payload
  have hfits : (frame s.mode q s.payload).length ≤ 133 := by rw [hlen]; cases s.mode <;> decide
  have hpacked := (State.FrameLoaded.packed q s).answered (BitVec.ofNat 16 (frameLen s.mode))
  have hmode : ((packed q s).answered (BitVec.ofNat 16 (frameLen s.mode))).mode = s.mode := by simp [packed]
  obtain ⟨u, hu, hresponse, hseq, hpayload, hcount, hsum, hcrc⟩ :=
    execUnpack_of_frameLoaded hmode hpacked s.length_payload
  refine ⟨_, u, execPack_of_plen hplen, rfl, hu, hresponse, hseq, hpayload, hcount, hsum, hcrc, fun r hr => ?_⟩
  have hread := hpacked.readOut_frd hfits
  rw [hlen] at hread
  rw [hread]
  refine execUnpack_of_frameLoaded ?_ (.fclr_fwrs r hfits) s.length_payload
  rw [issueAll, mode_issueAll_fwr, issue_of_exec (t := (r.setFrame r.fbuf 0).answered 0) rfl rfl]
  exact hr

theorem frameLen_injective : Function.Injective frameLen
  | .checksum, .checksum, _ | .crc, .crc, _ => rfl
  | .checksum, .crc, h | .crc, .checksum, h => absurd h (by decide)

/-- Settles O32: `PACK` leaves the length of its mode in `FLEN`, which `SETMODE` keeps, and the two modes' lengths differ. -/
theorem modeMismatchFaultsOnLength : Obligations.ModeMismatchFaultsOnLength := by
  intro s t u q m hplen hm hmode ht hu
  cases ht.symm.trans (execPack_of_plen hplen)
  rcases execSetmode_cases m ((packed q s).answered (BitVec.ofNat 16 (frameLen s.mode))) with ⟨-, he⟩ | ⟨hlt, -⟩
  · cases hu.symm.trans he
    refine execUnpack_of_flen_ne fun hlen => hmode (frameLen_injective ?_)
    exact hlen.symm.trans (toNat_frameLen s.mode)
  · exact absurd hm hlt.not_ge

end Sys2Proof.Machine

/-! ## What an engine does with an event, by its phase (R133, R134, R144, R150, log 18) -/

namespace Sys2Proof.Machine

section

variable {c : HostConfig} {ch : HostChoices} {r : Receiver} {t : Sender} {b : Byte}

/-! ### The receiver -/

theorem Receiver.react_byte_of_transferring (h : r.phase = .transferring) (b : Byte) :
    r.react c ch (.byte b) = r.mainByte c ch b := by
  simp only [Receiver.react, h]

theorem Receiver.react_byte_of_negotiating (h : r.phase = .negotiating) (b : Byte) :
    r.react c ch (.byte b) = r.enterMainLoop.mainByte c ch b := by
  simp only [Receiver.react, h]

theorem Receiver.react_timeout_of_transferring (h : r.phase = .transferring) :
    r.react c ch .timeout = r.blockError c .timeoutExceeded := by
  simp only [Receiver.react, h]

theorem Receiver.react_byte_of_init (h : r.phase = .init) (b : Byte) : r.react c ch (.byte b) = r := by
  simp only [Receiver.react, h]

/-- The end of the channel ends a session that is not over (R128). -/
theorem Receiver.react_ended (h : r.phase = .init ∨ r.phase = .negotiating ∨ r.phase = .transferring) :
    r.react c ch .ended = r.abort .unexpectedEndOfChannel := by
  rcases h with h | h | h <;> simp only [Receiver.react, h]

/-- No receiver comes to EOT_PENDING; there it would stay. -/
theorem Receiver.react_of_eotPending (h : r.phase = .eotPending) (e : ChannelEvent) : r.react c ch e = r := by
  simp only [Receiver.react, h]

theorem Receiver.react_timeout_of_init (h : r.phase = .init) : r.react c ch .timeout = r.negotiate c := by
  simp only [Receiver.react, h]

theorem Receiver.react_timeout_of_asked_crc (h : r.phase = .negotiating) (hasked : r.asked = some .crc) :
    r.react c ch .timeout = r.negotiate c := by
  simp only [Receiver.react, h, if_pos hasked]

theorem Receiver.react_timeout_of_asked_ne (h : r.phase = .negotiating) (hasked : r.asked ≠ some .crc) :
    r.react c ch .timeout = r.enterMainLoop.blockError c .timeoutExceeded := by
  simp only [Receiver.react, h, if_neg hasked]

theorem Receiver.react_of_terminal (h : r.phase.terminal = true) (e : ChannelEvent) : r.react c ch e = r := by
  cases hp : r.phase with
  | done | aborted _ => simp only [Receiver.react, hp]
  | init | negotiating | transferring | eotPending => rw [hp] at h; cases h

/-! The main loop begins with the mode settled: by a response to a CRC request, or before by the legacy NAK (R132). -/

@[simp] theorem Receiver.enterMainLoop_phase : r.enterMainLoop.phase = .transferring := rfl

@[simp] theorem Receiver.enterMainLoop_expected : r.enterMainLoop.expected = r.expected := by
  simp only [Receiver.enterMainLoop]; split <;> rfl

@[simp] theorem Receiver.enterMainLoop_errorCount : r.enterMainLoop.errorCount = r.errorCount := by
  simp only [Receiver.enterMainLoop]; split <;> rfl

@[simp] theorem Receiver.enterMainLoop_held : r.enterMainLoop.held = r.held := by
  simp only [Receiver.enterMainLoop]; split <;> rfl

@[simp] theorem Receiver.enterMainLoop_partialFrame : r.enterMainLoop.partialFrame = r.partialFrame := by
  simp only [Receiver.enterMainLoop]; split <;> rfl

@[simp] theorem Receiver.enterMainLoop_sent : r.enterMainLoop.sent = r.sent := by
  simp only [Receiver.enterMainLoop]; split <;> rfl

@[simp] theorem Receiver.enterMainLoop_sink : r.enterMainLoop.sink = r.sink := by
  simp only [Receiver.enterMainLoop]; split <;> rfl

theorem Receiver.mainByte_of_partialFrame_nil (h : r.partialFrame = []) (b : Byte) :
    r.mainByte c ch b = r.commandByte b := if_pos h

theorem Receiver.mainByte_of_partialFrame_ne_nil (h : r.partialFrame ≠ []) (b : Byte) :
    r.mainByte c ch b = r.blockByte c ch b := if_neg h

theorem Receiver.commandByte_soh (r : Receiver) : r.commandByte Config.soh =
    { r.command [.fclr, .fwr Config.soh] with partialFrame := [Config.soh] } := if_pos rfl

theorem Receiver.commandByte_eot (r : Receiver) : r.commandByte Config.eot =
    { (r.send Config.ack).flushFinal with phase := .done } :=
  (if_neg (show Config.eot ≠ Config.soh by decide)).trans (if_pos rfl)

theorem Receiver.commandByte_of_noise (hsoh : b ≠ Config.soh) (heot : b ≠ Config.eot) : r.commandByte b = r :=
  (if_neg hsoh).trans (if_neg heot)

/-! ### The sender -/

theorem Sender.react_of_init (h : t.phase = .init) (e : ChannelEvent) : t.react ch e = t := by
  simp only [Sender.react, h]

theorem Sender.react_of_terminal (h : t.phase.terminal = true) (e : ChannelEvent) : t.react ch e = t := by
  cases hp : t.phase with
  | done | aborted _ => simp only [Sender.react, hp]
  | init | negotiating | transferring | eotPending => rw [hp] at h; cases h

theorem Sender.react_of_awaiting (hinit : t.phase ≠ .init) (hterminal : t.phase.terminal = false) :
    (∀ b, t.react ch (.byte b) = t.responseByte ch b) ∧ t.react ch .timeout = t.noResponse .timeoutExceeded ∧
      t.react ch .ended = t.noResponse .unexpectedEndOfChannel := by
  cases hp : t.phase with
  | init => exact absurd hp hinit
  | done | aborted _ => rw [hp] at hterminal; cases hterminal
  | negotiating | transferring | eotPending => simp only [Sender.react, hp, implies_true, and_self]

theorem Sender.responseByte_ack (t : Sender) : t.responseByte ch Config.ack = t.acked := if_pos rfl

theorem Sender.responseByte_crcReq (t : Sender) : t.responseByte ch Config.crcReq = t.crcRequested ch :=
  (if_neg (show Config.crcReq ≠ Config.ack by decide)).trans (if_pos rfl)

theorem Sender.responseByte_nak (t : Sender) : t.responseByte ch Config.nak = t.naked ch :=
  (if_neg (show Config.nak ≠ Config.ack by decide)).trans
    ((if_neg (show Config.nak ≠ Config.crcReq by decide)).trans (if_pos rfl))

theorem Sender.responseByte_of_noise (hack : b ≠ Config.ack) (hnak : b ≠ Config.nak) (hcrc : b ≠ Config.crcReq) :
    t.responseByte ch b = t :=
  (if_neg hack).trans ((if_neg hcrc).trans (if_neg hnak))

end

/-- Settles O40: the receiver's noise by its command byte, the sender's by its phase and its response byte. -/
theorem noiseIsIgnored : Obligations.NoiseIsIgnored := by
  refine ⟨fun c ch r b hphase hpartial hsoh heot => ?_, fun ch t b hack hnak hcrc => ?_⟩
  · rw [Receiver.react_byte_of_transferring hphase, Receiver.mainByte_of_partialFrame_nil hpartial,
      Receiver.commandByte_of_noise hsoh heot]
  · by_cases hinit : t.phase = .init
    · exact Sender.react_of_init hinit _
    · cases hterminal : t.phase.terminal with
      | true => exact Sender.react_of_terminal hterminal _
      | false =>
        obtain ⟨hbyte, -⟩ := Sender.react_of_awaiting (ch := ch) hinit hterminal
        rw [hbyte, Sender.responseByte_of_noise hack hnak hcrc]

/-- Settles O46: each of the three waits ends in the block-level error of a time-out. -/
theorem receiverCountsTimeouts : Obligations.ReceiverCountsTimeouts := by
  rintro c ch r (hphase | ⟨hphase, hasked⟩)
  · rw [Receiver.react_timeout_of_transferring hphase, Receiver.blockError_phase, hphase]
    simp
  · rw [Receiver.react_timeout_of_asked_ne hphase hasked, Receiver.blockError_phase]
    simp

end Sys2Proof.Machine

/-! ## The order of the phases (R158) -/

namespace Sys2Proof.Machine

theorem Phase.rank_le_four (q : Phase) : q.rank ≤ 4 := by cases q <;> simp [Phase.rank]

theorem Phase.rank_of_terminal {p : Phase} (h : p.terminal = true) : p.rank = 4 := by
  cases p with
  | done | aborted _ => rfl
  | init | negotiating | transferring | eotPending => cases h

/-! ### The receiver: within the main loop it stays where it is or comes to an end -/

section

variable (c : HostConfig) (ch : HostChoices) (r : Receiver)

theorem Receiver.blockError_phase_or_terminal (kind : HostError) :
    (r.blockError c kind).phase = r.phase ∨ (r.blockError c kind).phase.terminal = true := by
  rw [Receiver.blockError_phase]
  split
  · exact .inr rfl
  · exact .inl rfl

theorem Receiver.commandByte_phase_or_terminal (b : Byte) :
    (r.commandByte b).phase = r.phase ∨ (r.commandByte b).phase.terminal = true := by
  unfold Receiver.commandByte
  split_ifs
  · exact .inl rfl
  · exact .inr rfl
  · exact .inl rfl

theorem Receiver.headerRead_phase_or_terminal (q k : Byte) :
    (r.headerRead c ch q k).phase = r.phase ∨ (r.headerRead c ch q k).phase.terminal = true := by
  unfold Receiver.headerRead
  split
  · exact .inr rfl
  · split_ifs
    · exact .inl rfl
    · exact r.blockError_phase_or_terminal c _
  · exact .inl rfl
  · exact .inl rfl

theorem Receiver.frameRead_phase_or_terminal :
    (r.frameRead c).phase = r.phase ∨ (r.frameRead c).phase.terminal = true := by
  unfold Receiver.frameRead
  dsimp only
  split
  · exact .inr rfl
  · exact Receiver.blockError_phase_or_terminal c _ _
  · exact Receiver.blockError_phase_or_terminal c _ _
  · exact Receiver.blockError_phase_or_terminal c _ _
  · exact .inl rfl
  · exact .inl rfl

theorem Receiver.mainByte_phase_or_terminal (b : Byte) :
    (r.mainByte c ch b).phase = r.phase ∨ (r.mainByte c ch b).phase.terminal = true := by
  unfold Receiver.mainByte Receiver.blockByte
  dsimp only
  split_ifs
  · exact r.commandByte_phase_or_terminal b
  · exact Receiver.headerRead_phase_or_terminal c ch _ _ _
  · exact Receiver.frameRead_phase_or_terminal c _
  · exact .inl rfl

theorem Receiver.negotiate_phase : (r.negotiate c).phase = .negotiating := by
  unfold Receiver.negotiate
  split <;> rfl

end

theorem Phase.rank_le_of_eq_or_terminal {p q : Phase} (h : p = q ∨ p.terminal = true) : q.rank ≤ p.rank := by
  rcases h with rfl | h
  · exact le_rfl
  · exact q.rank_le_four.trans (Phase.rank_of_terminal h).ge

theorem Receiver.rank_le_react (c : HostConfig) (ch : HostChoices) (r : Receiver) (e : ChannelEvent) :
    r.phase.rank ≤ (r.react c ch e).phase.rank := by
  cases hphase : r.phase with
  | init => exact Nat.zero_le _
  | negotiating =>
    have hloop : Phase.negotiating.rank ≤ r.enterMainLoop.phase.rank := Nat.le_succ 1
    cases e with
    | byte b =>
      rw [Receiver.react_byte_of_negotiating hphase]
      exact hloop.trans (Phase.rank_le_of_eq_or_terminal (r.enterMainLoop.mainByte_phase_or_terminal c ch b))
    | timeout =>
      by_cases hasked : r.asked = some .crc
      · rw [Receiver.react_timeout_of_asked_crc hphase hasked, Receiver.negotiate_phase]
      · rw [Receiver.react_timeout_of_asked_ne hphase hasked]
        exact hloop.trans (Phase.rank_le_of_eq_or_terminal (r.enterMainLoop.blockError_phase_or_terminal c _))
    | ended =>
      rw [Receiver.react_ended (.inr (.inl hphase))]
      exact Phase.rank_le_four _
  | transferring =>
    rw [← hphase]
    cases e with
    | byte b =>
      rw [Receiver.react_byte_of_transferring hphase]
      exact Phase.rank_le_of_eq_or_terminal (r.mainByte_phase_or_terminal c ch b)
    | timeout =>
      rw [Receiver.react_timeout_of_transferring hphase]
      exact Phase.rank_le_of_eq_or_terminal (r.blockError_phase_or_terminal c _)
    | ended =>
      rw [Receiver.react_ended (.inr (.inr hphase))]
      exact Phase.rank_le_four _
  | eotPending => rw [Receiver.react_of_eotPending hphase, hphase]
  | done | aborted _ => rw [Receiver.react_of_terminal (by rw [hphase]; rfl), hphase]

theorem Receiver.react_phase_of_init {c : HostConfig} {ch : HostChoices} {r : Receiver} (h : r.phase = .init)
    (e : ChannelEvent) : (r.react c ch e).phase = .init ∨ (r.react c ch e).phase = .negotiating ∨
      (r.react c ch e).phase = .aborted .unexpectedEndOfChannel := by
  cases e with
  | byte b => exact .inl (by rw [Receiver.react_byte_of_init h, h])
  | timeout => exact .inr (.inl (by rw [Receiver.react_timeout_of_init h, Receiver.negotiate_phase]))
  | ended => exact .inr (.inr (by rw [Receiver.react_ended (.inl h)]; rfl))

/-! ### The sender: what it does with a response, by the mark of EOT (R145 to R148) -/

/-- The sender is in EOT_PENDING only after EOT. -/
def Sender.EotPendingAfterEot (t : Sender) : Prop := t.phase = .eotPending → t.eotSent = true

/-- One session comes after another in the order of R158, and keeps to the mark of EOT. -/
def Sender.Advances (t u : Sender) : Prop := t.phase.rank ≤ u.phase.rank ∧ u.EotPendingAfterEot

section

variable {t : Sender}

theorem Sender.Advances.refl (h : t.EotPendingAfterEot) : t.Advances t := ⟨le_rfl, h⟩

theorem Sender.advances_of_terminal {u : Sender} (h : u.phase.terminal = true) : t.Advances u := by
  refine ⟨t.phase.rank_le_four.trans (Phase.rank_of_terminal h).ge, fun heot => ?_⟩
  rw [heot] at h
  cases h

theorem Sender.noResponse_terminal (e : HostError) : (t.noResponse e).phase.terminal = true := by
  unfold Sender.noResponse
  dsimp only
  split <;> rfl

variable (hterminal : t.phase.terminal = false)

include hterminal

theorem Sender.sendEot_advances : t.Advances t.sendEot := by
  refine ⟨?_, fun _ => rfl⟩
  change t.phase.rank ≤ Phase.eotPending.rank
  cases hp : t.phase with
  | done | aborted _ => rw [hp] at hterminal; cases hterminal
  | init | negotiating | transferring | eotPending => decide

variable (hmark : t.EotPendingAfterEot)

include hmark

/-- A session that has sent EOT or not is no later than the state that a transmission leads to. -/
theorem Sender.rank_le_transmit : t.phase.rank ≤ (if t.eotSent then Phase.eotPending else .transferring).rank := by
  cases hp : t.phase with
  | done | aborted _ => rw [hp] at hterminal; cases hterminal
  | init | negotiating | transferring => cases t.eotSent <;> decide
  | eotPending => rw [hmark hp]; decide

theorem Sender.transmit_advances {u : Sender} (h : u.eotSent = t.eotSent) : t.Advances u.transmit := by
  refine ⟨?_, fun heot => ?_⟩
  · rw [Sender.transmit_phase, h]
    exact Sender.rank_le_transmit hterminal hmark
  · rw [Sender.transmit_phase] at heot
    by_contra hnot
    rw [if_neg (show ¬ u.eotSent = true from hnot)] at heot
    cases heot

theorem Sender.acked_advances : t.Advances t.acked := by
  unfold Sender.acked
  dsimp only
  split_ifs
  · exact Sender.advances_of_terminal rfl
  · exact ⟨(Sender.sendEot_advances hterminal).1, fun _ => rfl⟩
  · exact Sender.transmit_advances hterminal hmark rfl

theorem Sender.crcRequested_advances (ch : HostChoices) : t.Advances (t.crcRequested ch) := by
  unfold Sender.crcRequested
  split_ifs
  · exact Sender.transmit_advances hterminal hmark rfl
  · exact Sender.transmit_advances hterminal hmark rfl
  · exact .refl hmark

theorem Sender.naked_advances (ch : HostChoices) : t.Advances (t.naked ch) := by
  unfold Sender.naked
  split_ifs
  · exact Sender.sendEot_advances hterminal
  · exact Sender.transmit_advances hterminal hmark rfl

theorem Sender.responseByte_advances (ch : HostChoices) (b : Byte) : t.Advances (t.responseByte ch b) := by
  unfold Sender.responseByte
  split_ifs
  · exact Sender.acked_advances hterminal hmark
  · exact Sender.crcRequested_advances hterminal hmark ch
  · exact Sender.naked_advances hterminal hmark ch
  · exact .refl hmark

end

theorem Sender.react_advances (ch : HostChoices) {t : Sender} (hmark : t.EotPendingAfterEot) (e : ChannelEvent) :
    t.Advances (t.react ch e) := by
  by_cases hinit : t.phase = .init
  · rw [Sender.react_of_init hinit]
    exact .refl hmark
  cases hterminal : t.phase.terminal with
  | true =>
    rw [Sender.react_of_terminal hterminal]
    exact .refl hmark
  | false =>
    obtain ⟨hbyte, htimeout, hended⟩ := Sender.react_of_awaiting (ch := ch) hinit hterminal
    cases e with
    | byte b =>
      rw [hbyte]
      exact Sender.responseByte_advances hterminal hmark ch b
    | timeout =>
      rw [htimeout]
      exact Sender.advances_of_terminal (Sender.noResponse_terminal _)
    | ended =>
      rw [hended]
      exact Sender.advances_of_terminal (Sender.noResponse_terminal _)

/-- Settles O49: each engine's reaction never lowers the rank, by its phase and then by what it does there. -/
theorem phasesOnlyAdvance : Obligations.PhasesOnlyAdvance := by
  refine ⟨fun c ch r e => ?_, fun _ _ => ⟨rfl, rfl, rfl⟩, fun ch t e hmark => ?_⟩
  · exact ⟨r.rank_le_react c ch e, fun h => Receiver.react_of_terminal h e, fun h => Receiver.react_phase_of_init h e⟩
  · obtain ⟨hrank, hkept⟩ := Sender.react_advances ch hmark e
    exact ⟨hrank, fun h => Sender.react_of_terminal h e, hkept⟩

end Sys2Proof.Machine

/-! ## The mode under a run of commands (R12, R100) -/

namespace Sys2Proof.Machine

theorem issue_mode {i : Instr} (hi : ∀ m, i ≠ .setmode m) (s : State) : (issue i s).mode = s.mode := by
  have hwf : i.wellFormed = true := by
    cases i with
    | setmode m => exact absurd rfl (hi m)
    | _ => rfl
  have ⟨t, ht⟩ : ∃ t, exec i s = .next t := by
    rcases exec_cases i s with ⟨_, _, -, he⟩ | ⟨_, he⟩ <;> exact ⟨_, he⟩
  rw [issue_of_exec hwf ht]
  obtain ⟨-, -, hmode, -⟩ := onlyTheListedCommandsWrite i s t ht
  by_contra hne
  obtain ⟨m, hm⟩ := hmode hne
  exact hi m hm

theorem issueAll_mode {is : List Instr} (his : ∀ i ∈ is, ∀ m, i ≠ .setmode m) (s : State) :
    (issueAll is s).mode = s.mode := by
  induction is generalizing s with
  | nil => rfl
  | cons i is ih =>
    rw [issueAll, ih fun j hj => his j (List.mem_cons_of_mem i hj), issue_mode (his i List.mem_cons_self)]

theorem issue_setmode_code (m : Mode) (s : State) :
    issue (.setmode (m.code.zeroExtend 8)) s = (s.setMode m).answered 0 := by
  cases m <;> exact issue_of_exec rfl rfl

@[simp] theorem Receiver.settleMode_block_mode (r : Receiver) (m : Mode) : (r.settleMode m).block.mode = m :=
  congrArg State.mode (issue_setmode_code m r.block)

end Sys2Proof.Machine

/-! ## The sequence test (R136, R137) -/

namespace Sys2Proof.Machine

theorem classifySequence_of_outOfWindow {e q : Byte} (hne : q ≠ e) (hprev : q ≠ e - 1) (pair : Bool) :
    classifySequence e q pair = .outOfWindow := if_pos ⟨hne, hprev⟩

theorem classifySequence_of_corrupt {e q : Byte} (hwindow : q = e ∨ q = e - 1) :
    classifySequence e q false = .corrupt :=
  (if_neg fun ⟨hne, hprev⟩ => hwindow.elim hne hprev).trans (if_pos rfl)

theorem classifySequence_of_expected (e : Byte) : classifySequence e e true = .newBlock :=
  (if_neg fun h => h.1 rfl).trans ((if_neg Bool.noConfusion).trans (if_pos rfl))

theorem sub_one_ne_self (e : Byte) : e - 1 ≠ e := by bv_omega

theorem classifySequence_of_previous (e : Byte) : classifySequence e (e - 1) true = .duplicate :=
  (if_neg fun h => h.2 rfl).trans ((if_neg Bool.noConfusion).trans (if_neg (sub_one_ne_self e)))

/-- The sequence before the expected one, as the specification counts it. -/
theorem eq_sub_one_iff (q e : Byte) : q = e - 1 ↔ q.toNat = (e.toNat + 255) % 256 := by bv_omega

theorem pairOk_eq_false_iff (q k : Byte) : pairOk q k = false ↔ q.toNat + k.toNat ≠ 255 := by
  rw [← Bool.not_eq_true, pairOk_iff]

section

variable {c : HostConfig} {ch : HostChoices} {r : Receiver} {q k : Byte}

theorem Receiver.headerRead_of_outOfWindow (hne : q ≠ r.expected) (hprev : q ≠ r.expected - 1) :
    r.headerRead c ch q k = r.abort .syncError := by
  rw [Receiver.headerRead, classifySequence_of_outOfWindow hne hprev]

/-- An invalid pair is a block-level error, unless the rest is read first (N10, log 7). -/
theorem Receiver.headerRead_of_corrupt (hwindow : q = r.expected ∨ q = r.expected - 1) (hpair : pairOk q k = false) :
    r.headerRead c ch q k = if ch.readRestAfterBadPair then r else r.blockError c .checksumExceeded := by
  rw [Receiver.headerRead, hpair, classifySequence_of_corrupt hwindow]

theorem Receiver.headerRead_of_expected (hq : q = r.expected) (hpair : pairOk q k = true) :
    r.headerRead c ch q k = r.flushWhole := by
  rw [Receiver.headerRead, hpair, hq, classifySequence_of_expected]

theorem Receiver.headerRead_of_previous (hq : q = r.expected - 1) (hpair : pairOk q k = true) :
    r.headerRead c ch q k = r := by
  rw [Receiver.headerRead, hpair, hq, classifySequence_of_previous]

/-- The block stores a further byte of the frame being read (R151). -/
def Receiver.stored (r : Receiver) (b : Byte) : Receiver :=
  { r.command [.fwr b] with partialFrame := r.partialFrame ++ [b] }

/-- The third byte of a block is the check byte, on which the sequence is tested. -/
theorem Receiver.blockByte_of_header {x : Byte} (h : r.partialFrame = [x, q]) (k : Byte) :
    r.blockByte c ch k = (r.stored k).headerRead c ch q k := by
  simp [Receiver.blockByte, Receiver.stored, h]

theorem Receiver.blockByte_of_last (hheader : r.partialFrame.length ≠ 2)
    (hlast : r.partialFrame.length + 1 = frameLen r.mode) (b : Byte) :
    r.blockByte c ch b = (r.stored b).frameRead c := by
  have hlen : (r.stored b).partialFrame.length = r.partialFrame.length + 1 := List.length_append
  exact (if_neg (show (r.stored b).partialFrame.length ≠ 3 by omega)).trans (if_pos (hlen.trans hlast))

theorem Receiver.blockByte_of_inner (hheader : r.partialFrame.length ≠ 2)
    (hlast : r.partialFrame.length + 1 ≠ frameLen r.mode) (b : Byte) : r.blockByte c ch b = r.stored b := by
  have hlen : (r.stored b).partialFrame.length = r.partialFrame.length + 1 := List.length_append
  exact (if_neg (show (r.stored b).partialFrame.length ≠ 3 by omega)).trans
    (if_neg (show (r.stored b).partialFrame.length ≠ frameLen r.mode by omega))

theorem Receiver.react_of_header {x : Byte} (hphase : r.phase = .transferring) (hpartial : r.partialFrame = [x, q])
    (k : Byte) : r.react c ch (.byte k) = (r.stored k).headerRead c ch q k := by
  rw [Receiver.react_byte_of_transferring hphase, Receiver.mainByte_of_partialFrame_ne_nil (by simp [hpartial]),
    Receiver.blockByte_of_header hpartial]

end

/-- Settles O41: one clause for each class of the sequence test, that of an invalid pair for both readings of N10. -/
theorem receiverTestsTheSequence : Obligations.ReceiverTestsTheSequence := by
  intro c ch r q k hphase hpartial
  simp only [← eq_sub_one_iff, ← pairOk_eq_false_iff, ← pairOk_iff, Receiver.react_of_header hphase hpartial]
  refine ⟨fun ⟨hne, hprev⟩ => ?_, fun hwindow hpair hrest => ?_, fun hwindow hpair hrest => ?_, ?_, ?_⟩
  · rw [Receiver.headerRead_of_outOfWindow (r := r.stored k) hne (mt (eq_sub_one_iff q r.expected).1 hprev)]
    exact ⟨rfl, rfl⟩
  · rw [Receiver.headerRead_of_corrupt (r := r.stored k) hwindow hpair, hrest, if_neg Bool.noConfusion,
      Receiver.blockError_phase]
    simp [Receiver.stored, Receiver.command, hphase]
  · rw [Receiver.headerRead_of_corrupt (r := r.stored k) hwindow hpair, hrest, if_pos rfl]
    exact ⟨rfl, rfl, rfl, rfl, hphase, congrArg (· ++ [k]) hpartial⟩
  · intro hq hpair
    rw [Receiver.headerRead_of_expected (r := r.stored k) hq hpair]
    exact ⟨hphase, rfl, Receiver.unflushed_flushWhole _, rfl⟩
  · intro hq hpair
    rw [Receiver.headerRead_of_previous (r := r.stored k) hq hpair]
    exact ⟨hphase, rfl, rfl⟩

end Sys2Proof.Machine

/-! ## The end of a transfer at the receiver (R135, R153) -/

namespace Sys2Proof.Machine

/-- The bytes below the trimmed length are those that remain when the filler is dropped from the end. -/
theorem take_trimLen (p : List Byte) : p.take (trimLen p) = (p.reverse.dropWhile fun b => b == 0x1A).reverse := by
  have hprefix : p.rdropWhile (fun b => decide (b = Config.filler)) <+: p := List.rdropWhile_prefix _ p
  rw [trimLen, ← List.length_reverse]
  exact (List.prefix_iff_eq_take.1 hprefix).symm

/-- `PLOAD` of a whole payload, and `PTRIM`, respond with its trimmed length (R153). -/
theorem ptrim_pload (s : State) {p : List Byte} (hlen : p.length = 128) :
    okData? (issueAll ((Pseudo.pload p).expand ++ [.ptrim]) s) = some (BitVec.ofNat 16 (trimLen p)) := by
  have hloaded : (issueAll (Pseudo.pload p).expand s).Loaded p :=
    (State.Loaded.pclr s).pwrs p (by simp [hlen])
  rw [issueAll_append, issueAll, issueAll, hloaded.ptrim hlen]
  rfl

section

variable {r : Receiver}

theorem Receiver.flushFinal_of_unflushed_none (h : r.unflushed = none) : r.flushFinal = r := by
  simp only [Receiver.flushFinal, h]

@[simp] theorem Receiver.flushFinal_sent (r : Receiver) : r.flushFinal.sent = r.sent := by
  unfold Receiver.flushFinal
  split <;> rfl

theorem Receiver.flushFinal_sink_of_unflushed_some {p : List Byte} (h : r.unflushed = some p) (hlen : p.length = 128) :
    r.flushFinal.sink = r.sink ++ p.take (trimLen p) := by
  have htrim : (BitVec.ofNat 16 (trimLen p)).toNat = trimLen p := by
    rw [BitVec.toNat_ofNat, Nat.mod_eq_of_lt (((trimLen_le_length p).trans_eq hlen).trans_lt (by decide))]
  simp only [Receiver.flushFinal, h, Receiver.command, ptrim_pload _ hlen, Option.map_some, Option.getD_some, htrim]
  rfl

theorem Receiver.react_eot {c : HostConfig} {ch : HostChoices} (hphase : r.phase = .transferring)
    (hpartial : r.partialFrame = []) :
    r.react c ch (.byte Config.eot) = { (r.send Config.ack).flushFinal with phase := .done } := by
  rw [Receiver.react_byte_of_transferring hphase, Receiver.mainByte_of_partialFrame_nil hpartial,
    Receiver.commandByte_eot]

end

/-- Settles O45: by whether something held has still to be flushed. -/
theorem receiverFinishesOnEot : Obligations.ReceiverFinishesOnEot := by
  intro c ch r hphase hpartial hlen
  rw [Receiver.react_eot hphase hpartial]
  refine ⟨rfl, Receiver.flushFinal_sent _, ?_⟩
  cases h : r.unflushed with
  | none =>
    rw [Receiver.flushFinal_of_unflushed_none (r := r.send Config.ack) h]
    exact (List.append_nil _).symm
  | some p =>
    change (r.send Config.ack).flushFinal.sink = _
    rw [Receiver.flushFinal_sink_of_unflushed_some (r := r.send Config.ack) h (hlen p h), take_trimLen]
    rfl

end Sys2Proof.Machine

/-! ## The negotiation of the mode (R132) -/

namespace Sys2Proof.Machine

section

variable {c : HostConfig} {ch : HostChoices} {r : Receiver}

/-! ### What a command byte leaves alone -/

theorem Receiver.flushFinal_mode (r : Receiver) :
    r.flushFinal.mode = r.mode ∧ r.flushFinal.block.mode = r.block.mode := by
  unfold Receiver.flushFinal
  split
  · exact ⟨rfl, rfl⟩
  · exact ⟨rfl, issueAll_mode (by simp +contextual [Pseudo.expand, or_imp]) _⟩

/-- A command byte leaves the mode as it was, the block's too. -/
theorem Receiver.commandByte_mode (r : Receiver) (b : Byte) :
    (r.commandByte b).mode = r.mode ∧ (r.commandByte b).block.mode = r.block.mode := by
  unfold Receiver.commandByte
  split_ifs
  · exact ⟨rfl, issueAll_mode (by simp) _⟩
  · exact (r.send Config.ack).flushFinal_mode
  · exact ⟨rfl, rfl⟩

theorem Receiver.sent_prefix_commandByte (r : Receiver) (b : Byte) : r.sent <+: (r.commandByte b).sent := by
  unfold Receiver.commandByte
  split_ifs
  · exact List.prefix_rfl
  · change r.sent <+: (r.send Config.ack).flushFinal.sent
    rw [Receiver.flushFinal_sent]
    exact List.prefix_append ..
  · exact List.prefix_rfl

theorem Receiver.commandByte_phase {b : Byte} (hb : b ≠ Config.eot) : (r.commandByte b).phase = r.phase := by
  unfold Receiver.commandByte
  rw [if_neg hb]
  split_ifs <;> rfl

/-! ### The two requests -/

theorem Receiver.negotiate_of_attempts_lt (hmode : c.mode = .crc) (h : r.attempts < c.crcAttempts) :
    r.negotiate c = r.requestCrc := if_pos ⟨hmode, h⟩

theorem Receiver.negotiate_of_crcAttempts_le (h : c.crcAttempts ≤ r.attempts) : r.negotiate c = r.requestLegacy :=
  if_neg fun hmore => h.not_gt hmore.2

theorem Receiver.negotiate_of_checksum (h : c.mode = .checksum) : r.negotiate c = r.requestLegacy :=
  if_neg fun hmore => Mode.noConfusion (h.symm.trans hmore.1)

/-- The mode that a receiver's request has asked for is that of its main loop, and of its block. -/
theorem Receiver.requestCrc_enterMainLoop_mode (r : Receiver) :
    r.requestCrc.enterMainLoop.mode = .crc ∧ r.requestCrc.enterMainLoop.block.mode = .crc :=
  ⟨rfl, r.requestCrc.settleMode_block_mode .crc⟩

theorem Receiver.requestLegacy_enterMainLoop_mode (r : Receiver) :
    r.requestLegacy.enterMainLoop.mode = .checksum ∧ r.requestLegacy.enterMainLoop.block.mode = .checksum :=
  ⟨rfl, (r.send Config.nak).settleMode_block_mode .checksum⟩

/-! ### What follows a request -/

/-- A byte after a request is the first of the main loop (log 13). -/
theorem Receiver.react_first_byte (hphase : r.phase = .negotiating) (hpartial : r.partialFrame = []) (b : Byte) :
    r.react c ch (.byte b) = r.enterMainLoop.commandByte b := by
  rw [Receiver.react_byte_of_negotiating hphase,
    Receiver.mainByte_of_partialFrame_nil (r.enterMainLoop_partialFrame.trans hpartial)]

theorem Receiver.requestCrc_react_byte (hpartial : r.partialFrame = []) (b : Byte) :
    r.sent ++ [Config.crcReq] <+: (r.requestCrc.react c ch (.byte b)).sent ∧
      (r.requestCrc.react c ch (.byte b)).mode = .crc ∧ (r.requestCrc.react c ch (.byte b)).block.mode = .crc := by
  rw [Receiver.react_first_byte (r := r.requestCrc) rfl hpartial]
  obtain ⟨hmode, hblock⟩ := r.requestCrc_enterMainLoop_mode
  obtain ⟨hmodeKept, hblockKept⟩ := r.requestCrc.enterMainLoop.commandByte_mode b
  have hsent := r.requestCrc.enterMainLoop.sent_prefix_commandByte b
  rw [Receiver.enterMainLoop_sent] at hsent
  exact ⟨hsent, hmodeKept.trans hmode, hblockKept.trans hblock⟩

theorem Receiver.requestLegacy_react_byte (hpartial : r.partialFrame = []) (b : Byte) :
    (r.requestLegacy.react c ch (.byte b)).mode = .checksum ∧
      (r.requestLegacy.react c ch (.byte b)).block.mode = .checksum ∧
      (b ≠ Config.eot → (r.requestLegacy.react c ch (.byte b)).phase = .transferring) := by
  rw [Receiver.react_first_byte (r := r.requestLegacy) rfl hpartial]
  obtain ⟨hmode, hblock⟩ := r.requestLegacy_enterMainLoop_mode
  obtain ⟨hmodeKept, hblockKept⟩ := r.requestLegacy.enterMainLoop.commandByte_mode b
  exact ⟨hmodeKept.trans hmode, hblockKept.trans hblock, Receiver.commandByte_phase⟩

theorem Receiver.requestLegacy_react_timeout (c : HostConfig) (ch : HostChoices) (r : Receiver) :
    (r.requestLegacy.react c ch .timeout).sent = r.requestLegacy.sent ++ [Config.nak] ∧
      (r.requestLegacy.react c ch .timeout).errorCount = r.errorCount + 1 := by
  rw [Receiver.react_timeout_of_asked_ne (r := r.requestLegacy) rfl (by simp [Receiver.requestLegacy]),
    Receiver.blockError_sent, Receiver.blockError_errorCount, Receiver.enterMainLoop_sent,
    Receiver.enterMainLoop_errorCount]
  exact ⟨rfl, rfl⟩

/-! ### Time-outs without an answer -/

/-- What any number of CRC requests leave of a session at its start. -/
theorem Receiver.iterate_requestCrc_start (c : HostConfig) (n : Nat) :
    ∃ p a, Receiver.requestCrc^[n] (Receiver.start c) = { Receiver.start c with
      phase := p, asked := a, attempts := n, sent := List.replicate n Config.crcReq } := by
  induction n with
  | zero => exact ⟨_, _, rfl⟩
  | succ n ih =>
    obtain ⟨p, a, h⟩ := ih
    refine ⟨.negotiating, some .crc, ?_⟩
    rw [Function.iterate_succ_apply', h, List.replicate_succ']
    rfl

theorem Receiver.react_timeout_iterate_requestCrc (n : Nat) :
    (Receiver.requestCrc^[n] (Receiver.start c)).react c ch .timeout =
      (Receiver.requestCrc^[n] (Receiver.start c)).negotiate c := by
  cases n with
  | zero => exact Receiver.react_timeout_of_init rfl
  | succ n =>
    rw [Function.iterate_succ_apply']
    exact Receiver.react_timeout_of_asked_crc rfl rfl

/-- Time-outs while attempts are left lead to as many CRC requests. -/
theorem Receiver.foldl_timeouts_of_crc (ch : HostChoices) (hmode : c.mode = .crc) {n : Nat} (hn : n ≤ c.crcAttempts) :
    (List.replicate n ChannelEvent.timeout).foldl (Receiver.react c ch) (Receiver.start c) =
      Receiver.requestCrc^[n] (Receiver.start c) := by
  induction n with
  | zero => rfl
  | succ n ih =>
    obtain ⟨p, a, h⟩ := Receiver.iterate_requestCrc_start c n
    rw [List.replicate_succ', List.foldl_append, ih (Nat.le_of_succ_le hn), List.foldl_cons, List.foldl_nil,
      Receiver.react_timeout_iterate_requestCrc, Function.iterate_succ_apply',
      Receiver.negotiate_of_attempts_lt hmode (by rw [h]; exact hn)]

/-- A time-out after the last CRC request leads to the legacy NAK (R132). -/
theorem Receiver.foldl_timeouts_of_crc_unanswered (ch : HostChoices) (hmode : c.mode = .crc) :
    (List.replicate (c.crcAttempts + 1) ChannelEvent.timeout).foldl (Receiver.react c ch) (Receiver.start c) =
      (Receiver.requestCrc^[c.crcAttempts] (Receiver.start c)).requestLegacy := by
  obtain ⟨p, a, h⟩ := Receiver.iterate_requestCrc_start c c.crcAttempts
  rw [List.replicate_succ', List.foldl_append, Receiver.foldl_timeouts_of_crc ch hmode le_rfl, List.foldl_cons,
    List.foldl_nil, Receiver.react_timeout_iterate_requestCrc, Receiver.negotiate_of_crcAttempts_le (by rw [h])]

end

/-- Settles O42: by the request that the time-outs have led to. -/
theorem receiverNegotiatesTheMode : Obligations.ReceiverNegotiatesTheMode := by
  refine fun c ch => ⟨fun hmode => ?_, fun hmode => ?_, fun hmode k b hk => ?_⟩
  · rw [Receiver.react_timeout_of_init rfl, Receiver.negotiate_of_checksum hmode]
    exact ⟨rfl, rfl, rfl⟩
  · rw [Receiver.foldl_timeouts_of_crc_unanswered ch hmode]
    obtain ⟨p, a, h⟩ := Receiver.iterate_requestCrc_start c c.crcAttempts
    obtain ⟨htimeoutSent, htimeoutCount⟩ := Receiver.requestLegacy_react_timeout c ch
      (Receiver.requestCrc^[c.crcAttempts] (Receiver.start c))
    refine ⟨?_, rfl, Receiver.settleMode_block_mode _ _, rfl, Receiver.requestLegacy_react_byte ?_, htimeoutSent,
      htimeoutCount.trans ?_⟩ <;> rw [h] <;> rfl
  · obtain ⟨p, a, h⟩ := Receiver.iterate_requestCrc_start c k
    rw [List.foldl_append, Receiver.foldl_timeouts_of_crc ch hmode (Nat.succ_le_of_lt hk), List.foldl_cons,
      List.foldl_nil, Function.iterate_succ_apply']
    obtain ⟨hsent, hmodeCrc, hblock⟩ := Receiver.requestCrc_react_byte (c := c) (ch := ch)
      (r := Receiver.requestCrc^[k] (Receiver.start c)) (by rw [h]; rfl) b
    refine ⟨?_, hmodeCrc, hblock⟩
    rw [h, ← List.replicate_succ', List.prefix_iff_eq_take, List.length_replicate] at hsent
    rw [h]
    exact hsent.symm

end Sys2Proof.Machine

/-! ## What a run of indexed reads leaves of the block (R93, R106) -/

namespace Sys2Proof.Machine

/-- Indexed reads change the response, and `ERR` where they fault, and nothing else. -/
theorem readOut_state {b : Buffer} {rd : Byte → Instr} (hwf : ∀ imm, (rd imm).wellFormed = true)
    (hrd : ∀ imm u, exec (rd imm) u = readIndexed b imm u) (i n : Nat) (s : State) :
    ∃ e a, (readOut rd i n s).1 = { s with err := e, response := a } := by
  induction n generalizing i s with
  | zero => exact ⟨_, _, rfl⟩
  | succ n ih =>
    have ⟨e, a, hissue⟩ : ∃ e a, issue (rd (BitVec.ofNat 8 i)) s = { s with err := e, response := a } := by
      rcases readIndexed_cases b (BitVec.ofNat 8 i) s with ⟨-, he⟩ | ⟨-, he⟩ <;>
        exact ⟨_, _, issue_of_exec (hwf _) ((hrd _ s).trans he)⟩
    obtain ⟨e', a', hrest⟩ := ih (i + 1) (issue (rd (BitVec.ofNat 8 i)) s)
    refine ⟨e', a', hrest.trans ?_⟩
    rw [hissue]

theorem readOut_frd_state (i n : Nat) (s : State) :
    ∃ e a, (readOut .frd i n s).1 = { s with err := e, response := a } :=
  readOut_state (b := .frame) (fun _ => rfl) (fun _ _ => rfl) i n s

theorem readOut_prd_state (i n : Nat) (s : State) :
    ∃ e a, (readOut .prd i n s).1 = { s with err := e, response := a } :=
  readOut_state (b := .payload) (fun _ => rfl) (fun _ _ => rfl) i n s

end Sys2Proof.Machine

/-! ## What the sender loads and transmits (R141, R149, R154) -/

namespace Sys2Proof.Machine

/-- The next block of a source: its first 128 bytes, with filler where it is shorter (R141). -/
def nextBlock (source : List Byte) : List Byte :=
  source.take 128 ++ List.replicate (128 - source.length) Config.filler

section

variable {ch : HostChoices} {t : Sender}

theorem length_nextBlock (source : List Byte) : (nextBlock source).length = 128 := by
  simp [nextBlock]; omega

theorem Sender.load_loaded (t : Sender) : t.load.block.Loaded (nextBlock t.source) := by
  have h := State.Loaded.ploadpad t.block (p := t.source.take 128) (by simp)
  rwa [List.length_take, show 128 - min 128 t.source.length = 128 - t.source.length by omega] at h

theorem Sender.load_payload (t : Sender) : t.load.block.payload = nextBlock t.source :=
  t.load_loaded.payload (length_nextBlock _)

theorem Sender.load_plen (t : Sender) : t.load.block.plen = 128 :=
  BitVec.eq_of_toNat_eq (t.load_loaded.plen.trans (length_nextBlock _))

theorem Sender.load_block_mode (t : Sender) : t.load.block.mode = t.block.mode :=
  issueAll_mode (by simp +contextual [Pseudo.expand, or_imp, -List.map_take]) _

/-- A transmission with a whole payload writes the frame of the block's mode, the current sequence and the payload to
the channel, and leaves payload and mode as they were. -/
theorem Sender.transmit_of_plen (h : t.block.plen = 128) :
    t.transmit.sent = t.sent ++ frame t.block.mode t.current t.block.payload ∧
      t.transmit.block.payload = t.block.payload ∧ t.transmit.block.plen = 128 ∧
      t.transmit.block.mode = t.block.mode := by
  have hpack := issue_of_exec (i := .pack t.current) rfl (execPack_of_plen h)
  have hloaded := (State.FrameLoaded.packed t.current t.block).answered (BitVec.ofNat 16 (frameLen t.block.mode))
  have hfits : (frame t.block.mode t.current t.block.payload).length ≤ 133 := by
    rw [length_frame _ _ _ t.block.length_payload]; cases t.block.mode <;> decide
  obtain ⟨e, a, hstate⟩ := readOut_frd_state 0 (issue (.pack t.current) t.block).flen.toNat
    (issue (.pack t.current) t.block)
  simp only [Sender.transmit, hstate]
  rw [hpack, hloaded.flen, hloaded.readOut_frd hfits]
  refine ⟨rfl, ?_, ?_, ?_⟩
  · exact State.bytesFrom_congr fun k _ => State.byteAt_congr (b := .payload) _ (by simp [packed]) (by simp [packed])
  · simpa [packed] using h
  · simp [packed]

theorem Sender.acked_of_eotSent (h : t.eotSent = true) : t.acked = { t with errorCount := 0, phase := .done } := by
  simp [Sender.acked, h]

theorem Sender.acked_of_exhausted (h : t.eotSent = false) (hsource : t.source = []) :
    t.acked = { t with errorCount := 0 }.sendEot := by
  simp [Sender.acked, h, hsource]

theorem Sender.acked_of_more (h : t.eotSent = false) (hsource : t.source ≠ []) :
    t.acked = ({ t with errorCount := 0, current := t.current + 1 } : Sender).load.transmit := by
  simp [Sender.acked, h, hsource]

theorem Sender.acked_errorCount (t : Sender) : t.acked.errorCount = 0 := by
  unfold Sender.acked
  dsimp only
  split_ifs <;> rfl

theorem Sender.naked_of_not_eotSent (h : t.eotSent = false) : t.naked ch = t.transmit := by
  simp [Sender.naked, h]

/-- A CRC request at the first block leads to a transmission in CRC mode (R146). -/
theorem Sender.crcRequested_of_first (h : t.current = 1) : t.crcRequested ch =
    ({ t with mode := .crc, block := (t.block.setMode .crc).answered 0 } : Sender).transmit := by
  rw [Sender.crcRequested, if_pos h, issue_of_exec (i := .setmode 1) rfl rfl]
  rfl

end

/-- Settles O43: INIT by the loading of the first block, each response by its own clause of the sender. -/
theorem senderReactsToResponses : Obligations.SenderReactsToResponses := by
  refine fun ch t => ⟨fun hinit => ?_, fun hinit hdone haborted => ?_⟩
  · exact ⟨Sender.react_of_init hinit, rfl, rfl, t.load_payload, t.load_plen, rfl, rfl⟩
  have hterminal : t.phase.terminal = false := by
    cases hp : t.phase with
    | done => exact absurd hp hdone
    | aborted e => exact absurd hp (haborted e)
    | init | negotiating | transferring | eotPending => rfl
  obtain ⟨hbyte, htimeout, -⟩ := Sender.react_of_awaiting (ch := ch) hinit hterminal
  rw [htimeout, hbyte, hbyte, hbyte, Sender.responseByte_nak, Sender.responseByte_ack, Sender.responseByte_crcReq]
  refine ⟨fun heot hplen => ?_, fun heot => ?_, fun heot hsource => ?_, fun heot hsource => ?_, fun hfirst hplen => ?_,
    fun heot => ?_, t.acked_errorCount⟩
  · rw [Sender.naked_of_not_eotSent heot]
    obtain ⟨hsent, hpayload, hplen, -⟩ := Sender.transmit_of_plen hplen
    exact ⟨hsent, rfl, rfl, hpayload, hplen⟩
  · rw [Sender.acked_of_eotSent heot]
    exact ⟨rfl, rfl, if_pos heot⟩
  · rw [Sender.acked_of_exhausted heot hsource]
    exact ⟨rfl, rfl, rfl⟩
  · rw [Sender.acked_of_more heot hsource]
    obtain ⟨hsent, hpayload, hplen, -⟩ := Sender.transmit_of_plen
      ({ t with errorCount := 0, current := t.current + 1 } : Sender).load_plen
    rw [Sender.load_payload, Sender.load_block_mode] at hsent
    exact ⟨rfl, rfl, hsent, hpayload.trans (Sender.load_payload _), hplen⟩
  · rw [Sender.crcRequested_of_first hfirst]
    obtain ⟨hsent, -, -, hmode⟩ := Sender.transmit_of_plen
      (t := { t with mode := .crc, block := (t.block.setMode .crc).answered 0 }) hplen
    rw [← hfirst]
    exact ⟨hsent, rfl, hmode⟩
  · exact if_neg (by simp [heot])

end Sys2Proof.Machine

/-! ## What `UNPACK` makes of a frame as it was received, correct or not (R108) -/

namespace Sys2Proof.Machine

theorem State.statCheckOk_unpackStat (s : State) : statCheckOk s.unpackStat = s.checkOk :=
  getLsbD_statBits_zero _ _ _

theorem State.statPairOk_unpackStat (s : State) :
    statPairOk s.unpackStat = pairOk (s.byteAt .frame 1) (s.byteAt .frame 2) :=
  getLsbD_statBits_one _ _ _

/-- The bytes of a block as the receiver reads them: header, payload, validator (R136, R138). -/
def receivedFrame (q k : Byte) (p v : List Byte) : List Byte := [Config.soh, q, k] ++ p ++ v

theorem frame_eq_receivedFrame (m : Mode) (q : Byte) (p : List Byte) :
    frame m q p = receivedFrame q (0xFF - q) p (validatorBytes m p) := rfl

theorem pairOk_complement (q : Byte) : pairOk q (0xFF - q) = true := by
  obtain ⟨hpair, hsub, -⟩ := sequenceCheckForms q (0xFF - q)
  exact hpair.2 (hsub.1 rfl)

namespace State.FrameLoaded

variable {s : State} {q k : Byte} {p v : List Byte}

theorem framePayload_of_received (h : s.FrameLoaded (receivedFrame q k p v)) (hp : p.length = 128) :
    s.framePayload = p := by
  rw [State.framePayload, h.bytesFrom (by simp [receivedFrame, hp, Config.payloadLen])]
  simpa [receivedFrame] using List.take_left' hp

theorem byteAt_validator (h : s.FrameLoaded (receivedFrame q k p v)) (hp : p.length = 128) {i : Nat} {b : Byte}
    (hb : v[i]? = some b) : s.byteAt .frame (131 + i) = b := by
  refine h.byteAt ?_
  rw [receivedFrame, List.getElem?_append_right (by simp [hp])]
  simpa [hp] using hb

/-- The match of R138: the bytes after the payload are its validator. -/
theorem checkOk_iff (h : s.FrameLoaded (receivedFrame q k p v)) (hp : p.length = 128)
    (hv : v.length + 131 = frameLen s.mode) : s.checkOk = true ↔ v = validatorBytes s.mode p := by
  cases hm : s.mode with
  | checksum =>
    rw [hm] at hv
    obtain ⟨x, rfl⟩ := List.length_eq_one_iff.1 (Nat.add_right_cancel hv)
    rw [checkOk_iff_of_checksum hm, h.framePayload_of_received hp, h.byteAt_validator hp (i := 0) rfl]
    simp [validatorBytes, eq_comm]
  | crc =>
    rw [hm] at hv
    obtain ⟨x, y, rfl⟩ := List.length_eq_two.1 (Nat.add_right_cancel hv)
    rw [checkOk_iff_of_crc hm, h.framePayload_of_received hp, h.byteAt_validator hp (i := 0) rfl,
      h.byteAt_validator hp (i := 1) rfl]
    constructor
    · intro heq
      simp [validatorBytes, heq]
    · intro heq
      simp only [validatorBytes, List.cons.injEq, and_true] at heq
      rw [heq.1, heq.2, highByte_append_lowByte]

end State.FrameLoaded

end Sys2Proof.Machine

/-! ## A whole frame at the receiver (R138, R151, R152) -/

namespace Sys2Proof.Machine

/-- A receiver whose block holds a whole frame of its mode, still to be unpacked. -/
structure Receiver.Received (r : Receiver) (q k : Byte) (p v : List Byte) : Prop where
  mode : r.block.mode = r.mode
  loaded : r.block.FrameLoaded (receivedFrame q k p v)
  payload : p.length = 128
  validator : v.length + 131 = frameLen r.mode

section

variable {c : HostConfig} {ch : HostChoices} {r : Receiver} {q k : Byte} {p v : List Byte}

theorem length_receivedFrame (q k : Byte) (p v : List Byte) :
    (receivedFrame q k p v).length = 3 + p.length + v.length := by
  simp [receivedFrame]; omega

namespace Receiver.Received

theorem issue_unpack (h : r.Received q k p v) :
    issue .unpack r.block = (unpacked r.block).answered (r.block.unpackStat.zeroExtend 16) := by
  refine issue_of_exec (i := .unpack) rfl (execUnpack_of_flen ?_)
  rw [h.loaded.flen, length_receivedFrame, h.payload, h.mode, ← h.validator]
  omega

theorem stat (h : r.Received q k p v) :
    (responseData (issue .unpack r.block)).truncate 3 = r.block.unpackStat := by
  rw [h.issue_unpack]
  exact BitVec.setWidth_setWidth_of_le r.block.unpackStat (show 3 ≤ 16 by decide)

theorem issue_seqrd (h : r.Received q k p v) :
    issue .seqrd (issue .unpack r.block) = (issue .unpack r.block).answered (zext16 q) := by
  have hseq : (unpacked r.block).rseq = q := h.loaded.byteAt rfl
  rw [h.issue_unpack, issue_of_exec (i := .seqrd) rfl rfl, ← hseq]
  rfl

theorem sequence (h : r.Received q k p v) :
    lowByte (responseData (issue .seqrd (issue .unpack r.block))) = q := by
  rw [h.issue_seqrd]
  exact lowByte_zext16 q

theorem readOut_payload (h : r.Received q k p v) :
    ∃ b, readOut .prd 0 128 (issue .seqrd (issue .unpack r.block)) = (b, p) ∧ b.mode = r.mode := by
  have hloaded : (issue .seqrd (issue .unpack r.block)).Loaded p := by
    rw [h.issue_seqrd, h.issue_unpack, ← h.loaded.framePayload_of_received h.payload]
    exact ((unpacked_loaded r.block).answered _).answered _
  have hbytes := hloaded.readOut_prd h.payload.le h.payload.ge
  rw [List.take_of_length_le h.payload.le] at hbytes
  obtain ⟨e, a, hstate⟩ := readOut_prd_state 0 128 (issue .seqrd (issue .unpack r.block))
  refine ⟨_, Prod.ext rfl hbytes, (congrArg State.mode hstate).trans ?_⟩
  rw [h.issue_seqrd, h.issue_unpack, ← h.mode]
  simp [unpacked]

theorem statPairOk_eq (h : r.Received q k p v) : statPairOk r.block.unpackStat = pairOk q k := by
  rw [State.statPairOk_unpackStat, h.loaded.byteAt (i := 1) rfl, h.loaded.byteAt (i := 2) rfl]

theorem statCheckOk_iff (h : r.Received q k p v) :
    statCheckOk r.block.unpackStat = true ↔ v = validatorBytes r.mode p := by
  rw [State.statCheckOk_unpackStat, ← h.mode]
  exact h.loaded.checkOk_iff h.payload (by rw [h.mode]; exact h.validator)

/-! ### The outcomes of R139, R140 and R143 -/

/-- A match of the expected sequence: the payload is held, ACK, advance (R139). -/
theorem frameRead_of_expected (h : r.Received q k p v) (hq : q = r.expected) (hpair : pairOk q k = true)
    (hv : v = validatorBytes r.mode p) : ∃ b, b.mode = r.mode ∧ r.frameRead c = { r with
        block := b, partialFrame := [], sent := r.sent ++ [Config.ack],
        held := some { payload := p, flushed := false }, expected := r.expected + 1, errorCount := 0 } := by
  obtain ⟨b, hout, hmode⟩ := h.readOut_payload
  refine ⟨b, hmode, ?_⟩
  unfold Receiver.frameRead
  dsimp only [Receiver.command, issueAll]
  rw [h.stat, h.sequence, hout, h.statPairOk_eq, hpair, hq, classifySequence_of_expected, h.statCheckOk_iff.2 hv]
  rfl

/-- A match of the sequence before: the payload is held as the one it replaces, ACK, no advance (R143). -/
theorem frameRead_of_previous (h : r.Received q k p v) (hq : q = r.expected - 1) (hpair : pairOk q k = true)
    (hv : v = validatorBytes r.mode p) : ∃ b, b.mode = r.mode ∧ r.frameRead c = { r with
        block := b, partialFrame := [], sent := r.sent ++ [Config.ack],
        held := some { payload := p, flushed := (r.held.map Held.flushed).getD false } } := by
  obtain ⟨b, hout, hmode⟩ := h.readOut_payload
  refine ⟨b, hmode, ?_⟩
  unfold Receiver.frameRead
  dsimp only [Receiver.command, issueAll]
  rw [h.stat, h.sequence, hout, h.statPairOk_eq, hpair, hq, classifySequence_of_previous, h.statCheckOk_iff.2 hv]
  rfl

/-- In the window, an invalid pair or a mismatch of the validator is a block-level error (R136, R140). -/
theorem frameRead_of_refused (h : r.Received q k p v) (hwindow : q = r.expected ∨ q = r.expected - 1)
    (hbad : pairOk q k = false ∨ v ≠ validatorBytes r.mode p) : ∃ b : State,
      r.frameRead c = ({ r with block := b } : Receiver).blockError c .checksumExceeded := by
  refine ⟨issue .seqrd (issue .unpack r.block), ?_⟩
  unfold Receiver.frameRead
  dsimp only [Receiver.command, issueAll]
  rw [h.stat, h.sequence, h.statPairOk_eq]
  cases hpair : pairOk q k with
  | false =>
    rw [classifySequence_of_corrupt hwindow]
    rfl
  | true =>
    have hcheck : statCheckOk r.block.unpackStat = false := by
      rw [← Bool.not_eq_true, h.statCheckOk_iff]
      exact hbad.resolve_left (by simp [hpair])
    rw [hcheck]
    rcases hwindow with rfl | rfl
    · rw [classifySequence_of_expected]
      rfl
    · rw [classifySequence_of_previous]
      rfl

end Receiver.Received

/-! ### Reading the frame byte by byte (R151) -/

/-- The session of a receiver that has read the bytes `f` of a block since it waited between blocks (R151). -/
def Receiver.reading (r : Receiver) (f : List Byte) : Receiver :=
  { r with block := issueAll (.fclr :: f.map .fwr) r.block, partialFrame := f }

theorem Receiver.reading_stored (r : Receiver) (f : List Byte) (b : Byte) :
    (r.reading f).stored b = r.reading (f ++ [b]) := by
  simp only [Receiver.stored, Receiver.reading, Receiver.command, List.map_append, ← List.cons_append, issueAll_append]
  rfl

theorem Receiver.reading_received (hmode : r.block.mode = r.mode) (hp : p.length = 128)
    (hv : v.length + 131 = frameLen r.mode) : (r.reading (receivedFrame q k p v)).Received q k p v := by
  have hfits : (receivedFrame q k p v).length ≤ 133 := by
    rw [length_receivedFrame, hp]
    have : frameLen r.mode ≤ 133 := by cases r.mode <;> decide
    omega
  exact ⟨(issueAll_mode (by simp +contextual [or_imp]) _).trans hmode, State.FrameLoaded.fclr_fwrs _ hfits, hp, hv⟩

theorem Receiver.react_soh (hphase : r.phase = .transferring) (hpartial : r.partialFrame = []) :
    r.react c ch (.byte Config.soh) = r.reading [Config.soh] := by
  rw [Receiver.react_byte_of_transferring hphase, Receiver.mainByte_of_partialFrame_nil hpartial,
    Receiver.commandByte_soh]
  rfl

theorem Receiver.react_reading_inner {f : List Byte} (hphase : r.phase = .transferring) (hne : f ≠ [])
    (hheader : f.length ≠ 2) (hlast : f.length + 1 ≠ frameLen r.mode) (b : Byte) :
    (r.reading f).react c ch (.byte b) = r.reading (f ++ [b]) := by
  rw [Receiver.react_byte_of_transferring (r := r.reading f) hphase, Receiver.mainByte_of_partialFrame_ne_nil hne,
    Receiver.blockByte_of_inner hheader hlast, Receiver.reading_stored]

theorem Receiver.react_reading_last {f : List Byte} (hphase : r.phase = .transferring) (hne : f ≠ [])
    (hheader : f.length ≠ 2) (hlast : f.length + 1 = frameLen r.mode) (b : Byte) :
    (r.reading f).react c ch (.byte b) = (r.reading (f ++ [b])).frameRead c := by
  rw [Receiver.react_byte_of_transferring (r := r.reading f) hphase, Receiver.mainByte_of_partialFrame_ne_nil hne,
    Receiver.blockByte_of_last hheader hlast, Receiver.reading_stored]

/-- The bytes after the header are stored, and the last of them has the frame unpacked. -/
theorem Receiver.foldl_react_rest {f bs : List Byte} (hphase : r.phase = .transferring) (hf : 3 ≤ f.length)
    (hbs : bs ≠ []) (hlen : f.length + bs.length = frameLen r.mode) :
    (bs.map ChannelEvent.byte).foldl (Receiver.react c ch) (r.reading f) = (r.reading (f ++ bs)).frameRead c := by
  have hne : f ≠ [] := List.ne_nil_of_length_pos (by omega)
  induction bs generalizing f with
  | nil => exact absurd rfl hbs
  | cons b bs ih =>
    rw [List.length_cons] at hlen
    rw [List.map_cons, List.foldl_cons]
    by_cases hend : bs = []
    · subst hend
      rw [Receiver.react_reading_last hphase hne (by omega) (by simpa using hlen)]
      rfl
    · have hpos := List.length_pos_iff.2 hend
      rw [Receiver.react_reading_inner hphase hne (by omega) (by omega),
        ih (by simp; omega) hend (by simp; omega) (by simp), List.append_assoc]
      rfl

theorem Receiver.foldl_react_header (hphase : r.phase = .transferring) (hpartial : r.partialFrame = []) :
    ([Config.soh, q, k].map ChannelEvent.byte).foldl (Receiver.react c ch) r =
      (r.reading [Config.soh, q, k]).headerRead c ch q k := by
  have hlong : [Config.soh].length + 1 ≠ frameLen r.mode := by cases r.mode <;> decide
  simp only [List.map_cons, List.map_nil, List.foldl_cons, List.foldl_nil]
  rw [Receiver.react_soh hphase hpartial, Receiver.react_reading_inner hphase (by simp) (by simp) hlong,
    Receiver.react_of_header (r := r.reading ([Config.soh] ++ [q])) hphase rfl, Receiver.reading_stored]
  rfl

/-- A whole frame: the header is tested, and where the session `t` that this leads to reads on, the frame is unpacked
at its last byte. -/
theorem Receiver.foldl_react_receivedFrame {t : Receiver} (hphase : r.phase = .transferring)
    (hpartial : r.partialFrame = [])
    (hheader : (r.reading [Config.soh, q, k]).headerRead c ch q k = t.reading [Config.soh, q, k])
    (ht : t.phase = .transferring) (hp : p.length = 128) (hv : v.length + 131 = frameLen t.mode) :
    ((receivedFrame q k p v).map ChannelEvent.byte).foldl (Receiver.react c ch) r =
      (t.reading (receivedFrame q k p v)).frameRead c := by
  have hlen : [Config.soh, q, k].length + (p ++ v).length = frameLen t.mode := by
    rw [List.length_append, hp, ← hv]; simp; omega
  have hne : p ++ v ≠ [] := List.ne_nil_of_length_pos (by simp [hp])
  rw [receivedFrame, List.append_assoc, List.map_append, List.foldl_append,
    Receiver.foldl_react_header hphase hpartial, hheader, Receiver.foldl_react_rest ht le_rfl hne hlen]

/-- A receiver that awaits a command byte, its block in its mode. -/
structure Receiver.BetweenBlocks (r : Receiver) : Prop where
  phase : r.phase = .transferring
  partialFrame : r.partialFrame = []
  mode : r.block.mode = r.mode

namespace Receiver.BetweenBlocks

/-- The whole correct frame of the expected sequence (R137, R139). -/
theorem foldl_react_frame_expected (h : r.BetweenBlocks) (hp : p.length = 128) : ∃ b : State, b.mode = r.mode ∧
    ((frame r.mode r.expected p).map ChannelEvent.byte).foldl (Receiver.react c ch) r = { r.flushWhole with
        block := b, partialFrame := [], sent := r.sent ++ [Config.ack],
        held := some { payload := p, flushed := false }, expected := r.expected + 1, errorCount := 0 } := by
  have hv := (Nat.add_comm ..).trans (length_validatorBytes_add r.mode p)
  rw [frame_eq_receivedFrame, Receiver.foldl_react_receivedFrame (t := r.flushWhole) h.phase h.partialFrame
    (Receiver.headerRead_of_expected rfl (pairOk_complement _)) h.phase hp hv]
  exact (Receiver.reading_received (r := r.flushWhole) h.mode hp hv).frameRead_of_expected rfl (pairOk_complement _) rfl

/-- The whole correct frame of the sequence before it (R143). -/
theorem foldl_react_frame_previous (h : r.BetweenBlocks) (hp : p.length = 128) : ∃ b : State, b.mode = r.mode ∧
    ((frame r.mode (r.expected - 1) p).map ChannelEvent.byte).foldl (Receiver.react c ch) r = { r with
        block := b, partialFrame := [], sent := r.sent ++ [Config.ack],
        held := some { payload := p, flushed := (r.held.map Held.flushed).getD false } } := by
  have hv := (Nat.add_comm ..).trans (length_validatorBytes_add r.mode p)
  rw [frame_eq_receivedFrame, Receiver.foldl_react_receivedFrame (t := r) h.phase h.partialFrame
    (Receiver.headerRead_of_previous rfl (pairOk_complement _)) h.phase hp hv]
  exact (Receiver.reading_received h.mode hp hv).frameRead_of_previous rfl (pairOk_complement _) rfl

/-- A whole frame that is refused after the session `t` to which its header has led: one block-level error (R140). -/
theorem foldl_react_refused {t : Receiver} (h : r.BetweenBlocks) (ht : t.BetweenBlocks)
    (hheader : (r.reading [Config.soh, q, k]).headerRead c ch q k = t.reading [Config.soh, q, k])
    (hp : p.length = 128) (hv : v.length + 131 = frameLen t.mode) (hwindow : q = t.expected ∨ q = t.expected - 1)
    (hbad : pairOk q k = false ∨ v ≠ validatorBytes t.mode p) : ∃ b : State,
    ((receivedFrame q k p v).map ChannelEvent.byte).foldl (Receiver.react c ch) r =
      ({ t with block := b } : Receiver).blockError c .checksumExceeded := by
  rw [Receiver.foldl_react_receivedFrame h.phase h.partialFrame hheader ht.phase hp hv]
  exact (Receiver.reading_received ht.mode hp hv).frameRead_of_refused hwindow hbad

end Receiver.BetweenBlocks

end

/-- Settles O44: the frame of each of the two tolerated sequences, byte by byte. -/
theorem receiverTakesCorrectFrames : Obligations.ReceiverTakesCorrectFrames := by
  intro c ch r p hp hphase hpartial hmode
  have h : r.BetweenBlocks := ⟨hphase, hpartial, hmode⟩
  constructor
  · obtain ⟨b, hb, hfold⟩ := h.foldl_react_frame_expected (c := c) (ch := ch) hp
    rw [hfold]
    exact ⟨rfl, rfl, rfl, rfl, rfl, hphase, rfl, hb, rfl⟩
  · obtain ⟨b, -, hfold⟩ := h.foldl_react_frame_previous (c := c) (ch := ch) hp
    rw [hfold]
    exact ⟨rfl, rfl, rfl, rfl, rfl, hphase, rfl⟩

/-- Settles O48: after an invalid pair the header has changed nothing; after a valid one the expected sequence has
flushed, and its predecessor has not. -/
theorem receiverRefusesIncorrectFrames : Obligations.ReceiverRefusesIncorrectFrames := by
  intro c ch r q k p v hphase hpartial hmode hp hv hwindow t refused
  have h : r.BetweenBlocks := ⟨hphase, hpartial, hmode⟩
  rw [← eq_sub_one_iff] at hwindow
  have hrefused : ∀ {u : Receiver} {b : State}, t = ({ u with block := b } : Receiver).blockError c .checksumExceeded →
      u.sent = r.sent → u.errorCount = r.errorCount → u.expected = r.expected → u.phase = r.phase → refused := by
    intro u b ht hsent herror hexpected hphaseKept
    simp only [refused, ht, Receiver.blockError_phase]
    simp [hsent, herror, hexpected, hphaseKept, hphase]
  constructor
  · intro hpair hrest
    rw [← pairOk_eq_false_iff] at hpair
    have hheader : (r.reading [Config.soh, q, k]).headerRead c ch q k = r.reading [Config.soh, q, k] :=
      (Receiver.headerRead_of_corrupt (r := r.reading [Config.soh, q, k]) hwindow hpair).trans (if_pos hrest)
    obtain ⟨b, ht⟩ : ∃ b : State, t = _ := h.foldl_react_refused h hheader hp hv hwindow (.inl hpair)
    refine ⟨hrefused ht rfl rfl rfl rfl, ?_, ?_⟩ <;> simp [ht]
  · intro hpair hbad
    rw [← pairOk_iff] at hpair
    by_cases hq : q = r.expected
    · have hflushed : r.flushWhole.BetweenBlocks := ⟨hphase, hpartial, hmode⟩
      have hheader : (r.reading [Config.soh, q, k]).headerRead c ch q k = r.flushWhole.reading [Config.soh, q, k] :=
        Receiver.headerRead_of_expected hq hpair
      obtain ⟨b, ht⟩ : ∃ b : State, t = _ := h.foldl_react_refused hflushed hheader hp hv hwindow (.inr hbad)
      refine ⟨hrefused ht rfl rfl rfl rfl, fun _ => ⟨?_, ?_, ?_⟩, fun hne => absurd hq hne⟩
      · simp [ht]
      · rw [Receiver.unflushed, ht, Receiver.blockError_held]
        exact r.unflushed_flushWhole
      · rw [ht, Receiver.blockError_held]
        rfl
    · have hheader : (r.reading [Config.soh, q, k]).headerRead c ch q k = r.reading [Config.soh, q, k] :=
        Receiver.headerRead_of_previous (hwindow.resolve_left hq) hpair
      obtain ⟨b, ht⟩ : ∃ b : State, t = _ := h.foldl_react_refused h hheader hp hv hwindow (.inr hbad)
      refine ⟨hrefused ht rfl rfl rfl rfl, fun heq => absurd heq hq, fun _ => ⟨?_, ?_⟩⟩ <;> simp [ht]

end Sys2Proof.Machine

/-! ## Turns of the lossless transfer (R128, log 17) -/

namespace Sys2Proof.Machine

section

variable {c : HostConfig} {ch : HostChoices} {x y z : Transfer} {b : Byte}

theorem Transfer.turn_begin (h : x.sender.phase = .init) : x.turn c ch = { x with sender := x.sender.begin } := if_pos h

theorem Transfer.turn_toReceiver (h : x.sender.phase ≠ .init) (hb : x.sender.sent[x.receiverRead]? = some b) :
    x.turn c ch =
      { x with receiver := x.receiver.react c ch (.byte b), receiverRead := x.receiverRead + 1 } := by
  simp only [Transfer.turn, if_neg h, hb]

theorem Transfer.turn_toSender (h : x.sender.phase ≠ .init) (hnone : x.sender.sent[x.receiverRead]? = none)
    (hb : x.receiver.sent[x.senderRead]? = some b) :
    x.turn c ch = { x with sender := x.sender.react ch (.byte b), senderRead := x.senderRead + 1 } := by
  simp only [Transfer.turn, if_neg h, hnone, hb]

theorem Transfer.turn_timeout (h : x.sender.phase ≠ .init) (hsender : x.sender.sent[x.receiverRead]? = none)
    (hreceiver : x.receiver.sent[x.senderRead]? = none) :
    x.turn c ch = { x with receiver := x.receiver.react c ch .timeout } := by
  simp only [Transfer.turn, if_neg h, hsender, hreceiver]

/-- Some number of turns leads from one transfer to the other. -/
def Transfer.LeadsTo (c : HostConfig) (ch : HostChoices) (x y : Transfer) : Prop := ∃ n, x.run c ch n = y

theorem Transfer.run_add (m n : Nat) (x : Transfer) : x.run c ch (m + n) = (x.run c ch m).run c ch n := by
  induction m generalizing x with
  | zero => rw [Nat.zero_add]; rfl
  | succ m ih => rw [Nat.succ_add]; exact ih (x.turn c ch)

theorem Transfer.LeadsTo.trans (hxy : x.LeadsTo c ch y) (hyz : y.LeadsTo c ch z) : x.LeadsTo c ch z := by
  obtain ⟨m, rfl⟩ := hxy
  obtain ⟨n, rfl⟩ := hyz
  exact ⟨m + n, Transfer.run_add m n x⟩

theorem Transfer.leadsTo_of_turn (h : x.turn c ch = y) : x.LeadsTo c ch y := ⟨1, h⟩

/-- The bytes that the sender has in flight all reach the receiver before anything else happens. -/
theorem Transfer.leadsTo_deliver {pre bs : List Byte} (h : x.sender.phase ≠ .init) (hsent : x.sender.sent = pre ++ bs)
    (hread : x.receiverRead = pre.length) : x.LeadsTo c ch { x with
      receiver := (bs.map ChannelEvent.byte).foldl (Receiver.react c ch) x.receiver
      receiverRead := x.sender.sent.length } := by
  induction bs generalizing x pre with
  | nil =>
    rw [List.append_nil] at hsent
    refine ⟨0, ?_⟩
    rw [hsent, ← hread]
    rfl
  | cons b bs ih =>
    have hbyte : x.sender.sent[x.receiverRead]? = some b := by rw [hsent, hread]; simp
    have hturn := Transfer.turn_toReceiver (c := c) (ch := ch) h hbyte
    refine (Transfer.leadsTo_of_turn hturn).trans (ih (pre := pre ++ [b]) h ?_ ?_)
    · rw [hsent, List.append_cons]
    · rw [List.length_append, ← hread]; rfl

/-! ### One response of the receiver, and what the sender answers to it -/

/-- The receiver has read all that the sender wrote; the sender, all that the receiver wrote but the last byte, `b`. -/
structure Transfer.AwaitsResponse (x : Transfer) (b : Byte) : Prop where
  begun : x.sender.phase ≠ .init
  drained : x.receiverRead = x.sender.sent.length
  inFlight : ∃ pre, x.receiver.sent = pre ++ [b] ∧ x.senderRead = pre.length

/-- The response reaches the sender, and the bytes `bs` with which the sender answers it reach the receiver. -/
theorem Transfer.AwaitsResponse.leadsTo {bs : List Byte} (h : x.AwaitsResponse b)
    (hbegun : (x.sender.react ch (.byte b)).phase ≠ .init)
    (hsent : (x.sender.react ch (.byte b)).sent = x.sender.sent ++ bs) : x.LeadsTo c ch
      { sender := x.sender.react ch (.byte b)
        receiver := (bs.map ChannelEvent.byte).foldl (Receiver.react c ch) x.receiver
        senderRead := x.receiver.sent.length
        receiverRead := (x.sender.react ch (.byte b)).sent.length } := by
  obtain ⟨pre, hpre, hread⟩ := h.inFlight
  have hnone : x.sender.sent[x.receiverRead]? = none := by rw [h.drained]; simp
  have hbyte : x.receiver.sent[x.senderRead]? = some b := by rw [hpre, hread]; simp
  have hcount : x.senderRead + 1 = x.receiver.sent.length := by rw [hpre, hread]; simp
  have hturn := Transfer.turn_toSender (c := c) (ch := ch) h.begun hnone hbyte
  rw [hcount] at hturn
  exact (Transfer.leadsTo_of_turn hturn).trans (Transfer.leadsTo_deliver hbegun hsent h.drained)

end

end Sys2Proof.Machine

/-! ## A block over the lossless channel (R137, R139, R147, R149) -/

namespace Sys2Proof.Machine

/-- Since the session `t` the sender has sent the first block of a source, `rest`, in mode `m`, and awaits the ACK. -/
structure Sender.SentBlock (t u : Sender) (m : Mode) (rest : List Byte) : Prop where
  phase : u.phase = .transferring
  eotSent : u.eotSent = false
  mode : u.block.mode = m
  sent : u.sent = t.sent ++ frame m u.current (nextBlock rest)
  source : u.source = rest.drop 128

/-- The receiver has just accepted the last block that the sender sent, of the source `rest`, and holds it; the whole
source is what is in the sink, and then `rest`. -/
structure Transfer.BlockAccepted (x : Transfer) (whole rest : List Byte) : Prop where
  response : x.AwaitsResponse Config.ack
  receiver : x.receiver.BetweenBlocks
  eotSent : x.sender.eotSent = false
  phase : x.sender.phase = .transferring
  mode : x.sender.block.mode = x.receiver.mode
  sequence : x.receiver.expected = x.sender.current + 1
  source : x.sender.source = rest.drop 128
  held : x.receiver.held = some { payload := nextBlock rest, flushed := false }
  sink : whole = x.receiver.sink ++ rest

section

variable {c : HostConfig} {ch : HostChoices} {x : Transfer} {b : Byte} {whole rest : List Byte}

theorem Sender.transmit_sentBlock {t u : Sender} (hsent : u.sent = t.sent) (heot : u.eotSent = false)
    (hpayload : u.block.payload = nextBlock rest) (hplen : u.block.plen = 128) (hsource : u.source = rest.drop 128) :
    t.SentBlock u.transmit u.block.mode rest := by
  obtain ⟨htransmit, -, -, hmode⟩ := Sender.transmit_of_plen hplen
  rw [hsent, hpayload] at htransmit
  exact ⟨u.transmit_phase.trans (if_neg (by simp [heot])), heot, hmode, htransmit, hsource⟩

/-- Two sessions that react alike to a byte come to the same by any bytes. -/
theorem Receiver.foldl_react_congr {r s : Receiver} (h : ∀ e, r.react c ch (.byte e) = s.react c ch (.byte e))
    {f : List Byte} (hf : f ≠ []) : (f.map ChannelEvent.byte).foldl (Receiver.react c ch) r =
      (f.map ChannelEvent.byte).foldl (Receiver.react c ch) s := by
  cases f with
  | nil => exact absurd rfl hf
  | cons e f => exact congrArg (List.foldl (Receiver.react c ch) · (f.map ChannelEvent.byte)) (h e)

theorem frame_ne_nil (m : Mode) (q : Byte) (p : List Byte) : frame m q p ≠ [] := List.cons_ne_nil _ _

/-- The sender answers a response with a block, and the receiver, which reacts as `r` does, accepts it. -/
theorem Transfer.AwaitsResponse.leadsTo_blockAccepted {r : Receiver} (h : x.AwaitsResponse b)
    (hsender : x.sender.SentBlock (x.sender.react ch (.byte b)) r.mode rest)
    (hreact : ∀ e, x.receiver.react c ch (.byte e) = r.react c ch (.byte e)) (hr : r.BetweenBlocks)
    (hsent : r.sent = x.receiver.sent) (hexpected : r.expected = (x.sender.react ch (.byte b)).current)
    (hsink : whole = r.sink ++ r.unflushed.getD [] ++ rest) :
    ∃ y, x.LeadsTo c ch y ∧ y.BlockAccepted whole rest := by
  have hbegun : (x.sender.react ch (.byte b)).phase ≠ .init := by rw [hsender.phase]; nofun
  refine ⟨_, h.leadsTo hbegun hsender.sent, ?_⟩
  obtain ⟨s, hs, hfold⟩ := hr.foldl_react_frame_expected (c := c) (ch := ch) (length_nextBlock rest)
  rw [Receiver.foldl_react_congr hreact (frame_ne_nil _ _ _), ← hexpected, hfold]
  exact ⟨⟨hbegun, rfl, r.sent, rfl, congrArg List.length hsent.symm⟩, ⟨hr.phase, rfl, hs⟩, hsender.eotSent,
    hsender.phase, hsender.mode, congrArg (· + 1) hexpected, hsender.source, rfl, hsink⟩

/-! ### The first block, after the receiver's request -/

/-- Nothing has been sent yet, so after the sender has begun the receiver's drain ends at once. -/
theorem Transfer.start_leadsTo (c : HostConfig) (ch : HostChoices) (source : List Byte) :
    (Transfer.start c source).LeadsTo c ch
      { sender := (Sender.start c source).begin, receiver := (Receiver.start c).negotiate c
        senderRead := 0, receiverRead := 0 } := by
  refine (Transfer.leadsTo_of_turn (Transfer.turn_begin rfl)).trans (Transfer.leadsTo_of_turn ?_)
  rw [Transfer.turn_timeout (by nofun) rfl rfl]
  exact congrArg (Transfer.mk _ · 0 0) (Receiver.react_timeout_of_init rfl)

/-- A sender that has begun answers a NAK with its first block, in checksum mode (R148). -/
theorem Sender.begin_react_nak (c : HostConfig) (ch : HostChoices) (source : List Byte) :
    (start c source).begin.SentBlock ((start c source).begin.react ch (.byte Config.nak)) .checksum source ∧
      ((start c source).begin.react ch (.byte Config.nak)).current = 1 := by
  obtain ⟨hbyte, -⟩ := Sender.react_of_awaiting (ch := ch) (t := (start c source).begin) nofun rfl
  have hmode : (start c source).begin.block.mode = .checksum := (start c source).load_block_mode
  rw [hbyte, Sender.responseByte_nak, Sender.naked_of_not_eotSent rfl, ← hmode]
  exact ⟨Sender.transmit_sentBlock rfl rfl (start c source).load_payload (start c source).load_plen rfl, rfl⟩

/-- A sender that has begun answers a CRC request with its first block, in CRC mode (R146). -/
theorem Sender.begin_react_crcReq (c : HostConfig) (ch : HostChoices) (source : List Byte) :
    (start c source).begin.SentBlock ((start c source).begin.react ch (.byte Config.crcReq)) .crc source ∧
      ((start c source).begin.react ch (.byte Config.crcReq)).current = 1 := by
  obtain ⟨hbyte, -⟩ := Sender.react_of_awaiting (ch := ch) (t := (start c source).begin) nofun rfl
  rw [hbyte, Sender.responseByte_crcReq, Sender.crcRequested_of_first rfl]
  exact ⟨Sender.transmit_sentBlock rfl rfl (start c source).load_payload (start c source).load_plen rfl, rfl⟩

/-- A receiver that has just asked for a mode by its first byte `b`, for the block that the sender answers it with. -/
theorem Transfer.leadsTo_firstBlockAccepted {source : List Byte} {r : Receiver} (hsent : r.sent = [b])
    (hphase : r.phase = .negotiating) (hloop : r.enterMainLoop.BetweenBlocks)
    (hsender : (Sender.start c source).begin.SentBlock ((Sender.start c source).begin.react ch (.byte b))
      r.enterMainLoop.mode source)
    (hcurrent : ((Sender.start c source).begin.react ch (.byte b)).current = 1) (hexpected : r.expected = 1)
    (hheld : r.held = none) (hsink : r.sink = []) :
    ∃ y, Transfer.LeadsTo c ch (Transfer.mk (Sender.start c source).begin r 0 0) y ∧ y.BlockAccepted source source := by
  have h : (Transfer.mk (Sender.start c source).begin r 0 0).AwaitsResponse b := ⟨nofun, rfl, [], hsent, rfl⟩
  refine h.leadsTo_blockAccepted hsender (fun e => ?_) hloop r.enterMainLoop_sent ?_ ?_
  · rw [Receiver.react_byte_of_negotiating hphase, Receiver.react_byte_of_transferring hloop.phase]
  · rw [Receiver.enterMainLoop_expected, hexpected, hcurrent]
  · simp [Receiver.unflushed, hheld, hsink]

theorem Transfer.start_leadsTo_blockAccepted (c : HostConfig) (ch : HostChoices) (source : List Byte) :
    ∃ y, (Transfer.start c source).LeadsTo c ch y ∧ y.BlockAccepted source source := by
  have ⟨y, hy, haccepted⟩ : ∃ y, Transfer.LeadsTo c ch (Transfer.mk (Sender.start c source).begin
      ((Receiver.start c).negotiate c) 0 0) y ∧ y.BlockAccepted source source := by
    unfold Receiver.negotiate
    split
    · obtain ⟨hmode, hblock⟩ := (Receiver.start c).requestCrc_enterMainLoop_mode
      obtain ⟨hsender, hcurrent⟩ := Sender.begin_react_crcReq c ch source
      exact Transfer.leadsTo_firstBlockAccepted rfl rfl
        ⟨rfl, Receiver.enterMainLoop_partialFrame, hblock.trans hmode.symm⟩ (hmode ▸ hsender) hcurrent rfl rfl rfl
    · obtain ⟨hmode, hblock⟩ := (Receiver.start c).requestLegacy_enterMainLoop_mode
      obtain ⟨hsender, hcurrent⟩ := Sender.begin_react_nak c ch source
      exact Transfer.leadsTo_firstBlockAccepted rfl rfl
        ⟨rfl, Receiver.enterMainLoop_partialFrame, hblock.trans hmode.symm⟩ (hmode ▸ hsender) hcurrent rfl rfl rfl
  exact ⟨y, (Transfer.start_leadsTo c ch source).trans hy, haccepted⟩

/-! ### The further blocks and the end -/

theorem nextBlock_of_le {source : List Byte} (h : 128 ≤ source.length) : nextBlock source = source.take 128 := by
  rw [nextBlock, Nat.sub_eq_zero_of_le h, List.replicate_zero, List.append_nil]

theorem nextBlock_of_ge {source : List Byte} (h : source.length ≤ 128) :
    nextBlock source = source ++ List.replicate (128 - source.length) Config.filler := by
  rw [nextBlock, List.take_of_length_le h]

namespace Transfer.BlockAccepted

theorem sender_react_ack (h : x.BlockAccepted whole rest) :
    x.sender.react ch (.byte Config.ack) = x.sender.acked := by
  obtain ⟨hbyte, -⟩ := Sender.react_of_awaiting (ch := ch) h.response.begun (by rw [h.phase]; rfl)
  rw [hbyte, Sender.responseByte_ack]

theorem unflushed (h : x.BlockAccepted whole rest) : x.receiver.unflushed = some (nextBlock rest) := by
  simp [Receiver.unflushed, h.held]

/-- While the source has more, the next block is sent and accepted (R147). -/
theorem leadsTo_next (h : x.BlockAccepted whole rest) (hmore : 128 < rest.length) :
    ∃ y, x.LeadsTo c ch y ∧ y.BlockAccepted whole (rest.drop 128) := by
  have hsource : x.sender.source ≠ [] := by
    rw [h.source]
    exact List.ne_nil_of_length_pos (by simpa using hmore)
  have hacked := h.sender_react_ack (ch := ch).trans (Sender.acked_of_more h.eotSent hsource)
  refine h.response.leadsTo_blockAccepted (r := x.receiver) ?_ (fun _ => rfl) h.receiver rfl ?_ ?_
  · rw [hacked, ← h.mode, ← h.source, ← x.sender.load_block_mode]
    exact Sender.transmit_sentBlock rfl h.eotSent (Sender.load_payload _) (Sender.load_plen _) rfl
  · rw [hacked]
    exact h.sequence
  · rw [h.unflushed, Option.getD_some, nextBlock_of_le hmore.le, List.append_assoc, List.take_append_drop]
    exact h.sink

/-- What the receiver flushes at the end is what was left of the source, which does not end in the filler (C3). -/
theorem take_trimLen_nextBlock (h : x.BlockAccepted whole rest) (hlast : whole.getLast? ≠ some Config.filler)
    (hend : rest.length ≤ 128) : (nextBlock rest).take (trimLen (nextBlock rest)) = rest := by
  have hrest : rest.getLast? ≠ some Config.filler := fun hfiller => hlast (by rw [h.sink]; simp [hfiller])
  rw [nextBlock_of_ge hend, trimLen_append_filler hrest, List.take_left]

/-- When the source is exhausted the sender sends EOT, and the receiver finishes (R135, R147). -/
theorem leadsTo_eot (h : x.BlockAccepted whole rest) (hlast : whole.getLast? ≠ some Config.filler)
    (hend : rest.length ≤ 128) : ∃ y, x.LeadsTo c ch y ∧ y.AwaitsResponse Config.ack ∧ y.sender.phase = .eotPending ∧
      y.sender.eotSent = true ∧ y.receiver.phase = .done ∧ y.receiver.sink = whole := by
  have hsource : x.sender.source = [] := by rw [h.source, List.drop_of_length_le hend]
  have hacked := h.sender_react_ack (ch := ch).trans (Sender.acked_of_exhausted h.eotSent hsource)
  have hfinished : ([Config.eot].map ChannelEvent.byte).foldl (Receiver.react c ch) x.receiver = _ :=
    Receiver.react_eot h.receiver.phase h.receiver.partialFrame
  refine ⟨_, h.response.leadsTo (bs := [Config.eot]) (by rw [hacked]; nofun) (by rw [hacked]; rfl), ?_⟩
  rw [hacked, hfinished]
  refine ⟨⟨nofun, rfl, x.receiver.sent, Receiver.flushFinal_sent _, rfl⟩, rfl, rfl, rfl, ?_⟩
  have hflushed := Receiver.flushFinal_sink_of_unflushed_some (r := x.receiver.send Config.ack) h.unflushed
    (length_nextBlock rest)
  rw [h.take_trimLen_nextBlock hlast hend] at hflushed
  exact hflushed.trans h.sink.symm

end Transfer.BlockAccepted

/-- The ACK of EOT ends the sender's session (R147). -/
theorem Transfer.AwaitsResponse.leadsTo_done (h : x.AwaitsResponse Config.ack) (hphase : x.sender.phase = .eotPending)
    (heot : x.sender.eotSent = true) :
    ∃ y, x.LeadsTo c ch y ∧ y.sender.phase = .done ∧ y.receiver = x.receiver := by
  obtain ⟨hbyte, -⟩ := Sender.react_of_awaiting (ch := ch) h.begun (by rw [hphase]; rfl)
  have hacked := (hbyte Config.ack).trans (x.sender.responseByte_ack.trans (Sender.acked_of_eotSent heot))
  refine ⟨_, h.leadsTo (bs := []) (by rw [hacked]; nofun) (by rw [hacked]; exact (List.append_nil _).symm), ?_, rfl⟩
  rw [hacked]

/-- From an accepted block on, the transfer comes to its end, by induction on what is left of the source. -/
theorem Transfer.BlockAccepted.leadsTo_done (hlast : whole.getLast? ≠ some Config.filler)
    (h : x.BlockAccepted whole rest) : ∃ y, x.LeadsTo c ch y ∧ y.sender.phase = .done ∧ y.receiver.phase = .done ∧
      y.receiver.sink = whole := by
  induction hlen : rest.length using Nat.strong_induction_on generalizing x rest with | _ n ih => ?_
  by_cases hmore : 128 < rest.length
  · obtain ⟨y, hxy, hy⟩ := h.leadsTo_next (c := c) (ch := ch) hmore
    obtain ⟨z, hyz, hz⟩ := ih (rest.drop 128).length (by rw [List.length_drop]; omega) hy rfl
    exact ⟨z, hxy.trans hyz, hz⟩
  · obtain ⟨y, hxy, hresponse, hphase, heot, hdone, hsink⟩ :=
      h.leadsTo_eot (c := c) (ch := ch) hlast (Nat.le_of_not_lt hmore)
    obtain ⟨z, hyz, hsender, hreceiver⟩ := hresponse.leadsTo_done (c := c) (ch := ch) hphase heot
    exact ⟨z, hxy.trans hyz, hsender, hreceiver ▸ hdone, hreceiver ▸ hsink⟩

end

/-- Settles O47: negotiation and first block, then block by block to EOT. -/
theorem losslessTransferDeliversTheSource : Obligations.LosslessTransferDeliversTheSource := by
  intro c ch source hlast
  obtain ⟨x, hx, haccepted⟩ := Transfer.start_leadsTo_blockAccepted c ch source
  obtain ⟨y, hy, hdone⟩ := haccepted.leadsTo_done (c := c) (ch := ch) hlast
  obtain ⟨n, rfl⟩ := hx.trans hy
  exact ⟨n, hdone⟩

end Sys2Proof.Machine

/-! ## The faults of a command word (R170, R172, R173, R174) -/

namespace Sys2Proof.Machine

/-- Settles O33: a word that does not answer `ok` leaves the state before it with the fault taken. -/
theorem faultsChangeOneErrBitOnly : Obligations.FaultsChangeOneErrBitOnly := by
  intro w s t f h hf
  rcases runWord_next_cases h with ⟨-, d, hd⟩ | ⟨g, rfl⟩
  · cases hd.symm.trans hf
  · cases hf
    rfl

/-- The rows of R174, for a decoded command: the fault it raises, and in which states
(`response_eq_fault_iff_commandRaises` ties it to `exec`). -/
def CommandRaises (s : State) (f : BlockFault) : Instr → Prop
  | .bsum | .bcrc | .ptrim | .pack _ => f = .invalidBlockSize ∧ s.plen.toNat ≠ 128
  | .unpack => f = .invalidFrameSize ∧ s.flen.toNat ≠ frameLen s.mode
  | .prd imm => f = .indexOutOfRange ∧ validCount .payload s.plen ≤ imm.toNat
  | .frd imm => f = .indexOutOfRange ∧ validCount .frame s.flen ≤ imm.toNat
  | .setmode imm => f = .illegalCommand ∧ 1 < imm.toNat
  | .sumclr | .sumadd _ | .sumrd | .crcclr | .crcupd _ | .crcrd | .pclr | .pwr _ | .ppad | .plenrd
  | .fclr | .fwr _ | .flenrd | .seqrd | .statrd | .moderd | .errrd => False

section

variable {s t : State} {f : BlockFault}

/-- A guarded command responds the fault of its guard, and responds it just where the guard fails. -/
theorem response_eq_fault_iff_of_guard {P Q : Prop} {r : Result} {u : State} {d : Word} {g : BlockFault}
    (hr : (P ∧ r = .next (u.answered d)) ∨ (Q ∧ r = .next (s.faulted g))) (hguard : P → ¬ Q) (h : r = .next t) :
    t.response = some (.fault f) ↔ f = g ∧ Q := by
  rcases hr with ⟨hP, he⟩ | ⟨hQ, he⟩ <;> cases h.symm.trans he
  · simp [hguard hP]
  · simp [hQ, eq_comm]

/-- An executed command responds the fault of its row of R174, where the row says so. -/
theorem response_eq_fault_iff_commandRaises {i : Instr} (h : exec i s = .next t) :
    t.response = some (.fault f) ↔ CommandRaises s f i := by
  cases i with
  | bsum => exact response_eq_fault_iff_of_guard (execBsum_cases s) not_not_intro h
  | bcrc => exact response_eq_fault_iff_of_guard (execBcrc_cases s) not_not_intro h
  | ptrim => exact response_eq_fault_iff_of_guard (execPtrim_cases s) not_not_intro h
  | pack q => exact response_eq_fault_iff_of_guard (execPack_cases q s) not_not_intro h
  | unpack => exact response_eq_fault_iff_of_guard (execUnpack_cases s) not_not_intro h
  | prd n => exact response_eq_fault_iff_of_guard (readIndexed_cases .payload n s) Nat.not_le_of_lt h
  | frd n => exact response_eq_fault_iff_of_guard (readIndexed_cases .frame n s) Nat.not_le_of_lt h
  | setmode m => exact response_eq_fault_iff_of_guard (execSetmode_cases m s) Nat.not_lt_of_le h
  | ppad =>
    rcases execPpad_cases s with ⟨-, he⟩ | ⟨-, he⟩ <;> cases h.symm.trans he
    all_goals exact iff_of_false nofun id
  | _ => cases h; exact iff_of_false nofun id

end

/-- The columns of R174, for a fault: the words that raise it, by their two fields, and in which states
(`response_eq_fault_iff_wordRaises` ties it to `runWord`). -/
def WordRaises (op imm : Byte) (s : State) : BlockFault → Prop
  | .illegalCommand => ¬ LegalWord op imm
  | .indexOutOfRange =>
    (op = 0x33 ∧ min s.plen.toNat 128 ≤ imm.toNat) ∨ (op = 0x45 ∧ min s.flen.toNat 133 ≤ imm.toNat)
  | .invalidFrameSize => op = 0x42 ∧ imm = 0 ∧ s.flen.toNat ≠ (if s.mode = .crc then 133 else 132)
  | .invalidBlockSize => ((op ∈ [0x13#8, 0x23#8, 0x35#8] ∧ imm = 0) ∨ op = 0x41) ∧ s.plen ≠ 128

theorem frameLen_eq_ite (m : Mode) : frameLen m = if m = .crc then 133 else 132 := by cases m <;> rfl

/-- The rows and the columns of R174 agree on every legal word. -/
theorem wordRaises_iff_commandRaises {i : Instr} (hwf : i.wellFormed = true) (s : State) (f : BlockFault) :
    WordRaises i.opcode i.operand s f ↔ CommandRaises s f i := by
  cases f with
  | illegalCommand =>
    refine iff_of_false (not_not_intro (legalWord_of_wellFormed hwf)) ?_
    cases i with
    | setmode imm => exact fun h => h.2.not_ge (of_decide_eq_true hwf)
    | _ => simp [CommandRaises]
  | indexOutOfRange =>
    cases i <;> simp [WordRaises, CommandRaises, Instr.opcode, Instr.operand, validCount]
  | invalidFrameSize =>
    cases i <;> simp [WordRaises, CommandRaises, Instr.opcode, Instr.operand, frameLen_eq_ite]
  | invalidBlockSize =>
    have hplen : s.plen = 128#8 ↔ s.plen.toNat = 128 := BitVec.toNat_inj.symm
    cases i <;> simp [WordRaises, CommandRaises, Instr.opcode, Instr.operand, hplen]

/-- Decoding comes first (R173): an illegal word raises `IllegalCommand` and stands in no other column of R174. -/
theorem wordRaises_iff_of_not_legalWord {op imm : Byte} (h : ¬ LegalWord op imm) (s : State) (f : BlockFault) :
    WordRaises op imm s f ↔ f = .illegalCommand := by
  cases f with
  | illegalCommand => exact iff_of_true h rfl
  | indexOutOfRange =>
    refine iff_of_false ?_ nofun
    rintro (⟨rfl, -⟩ | ⟨rfl, -⟩) <;> simp [LegalWord] at h
  | invalidFrameSize =>
    refine iff_of_false ?_ nofun
    rintro ⟨rfl, rfl, -⟩
    simp [LegalWord] at h
  | invalidBlockSize =>
    refine iff_of_false ?_ nofun
    rintro ⟨⟨hop, rfl⟩ | rfl, -⟩
    · fin_cases hop <;> simp [LegalWord] at h
    · simp [LegalWord] at h

/-- A command word responds a fault exactly where the fault's column of R174 says so. -/
theorem response_eq_fault_iff_wordRaises {op imm : Byte} {s t : State} (h : runWord (op ++ imm) s = .next t)
    (f : BlockFault) : t.response = some (.fault f) ↔ WordRaises op imm s f := by
  by_cases hlegal : LegalWord op imm
  · obtain ⟨i, hd⟩ := exists_decode_of_legalWord hlegal
    obtain ⟨hop, himm, hwf⟩ := fields_of_decode_eq_command hd
    rw [opField_append] at hop
    rw [immField_append] at himm
    rw [runWord_of_decode_command hd] at h
    rw [response_eq_fault_iff_commandRaises h, ← hop, ← himm, wordRaises_iff_commandRaises hwf]
  · cases ((legalWordsAreTheCommands op imm s).2 hlegal).symm.trans h
    rw [wordRaises_iff_of_not_legalWord hlegal]
    simp [eq_comm]

/-- Settles O34: each column of the table, and the `ERR` bit by O33. -/
theorem faultTable : Obligations.FaultTable := by
  intro op imm s
  obtain ⟨t, ht, -, -⟩ := runWord_answers (op ++ imm) s
  have hraised := response_eq_fault_iff_wordRaises ht
  refine ⟨t, ht, hraised .illegalCommand, hraised .indexOutOfRange, hraised .invalidFrameSize,
    hraised .invalidBlockSize, fun f hf => ?_⟩
  rw [faultsChangeOneErrBitOnly _ s t f ht hf]

end Sys2Proof.Machine
